-- ==== Sys2Proof/Word.lean ====
section
/-! DEFINITION. The word of the bus and of the registers, the octet, and the bit string (R9, R10). -/

namespace Sys2Proof

/-- A register value or bus word: an unsigned 32-bit number (R10). -/
abbrev Word := BitVec 32

/-- An octet, a number 0 to 255 (R12). -/
abbrev Byte := BitVec 8

/-- A bit string (R9): head first, so the list's first entry is bit 0, "the first, leftmost bit". -/
abbrev Bits := List Bool

end Sys2Proof
end

