-- ==== Sys2Proof/Config.lean ====
section
/-! DEFINITION. The parameters an implementation fixes (R8), the fixed constants of the aperture (R8, R26), and the one
free value of the model (R40). -/

namespace Sys2Proof

/-- The parameters the source leaves to the implementation (R8). "A model takes each as an argument": they stand in
State, no step changes them, and a statement about every state is about every value of them (log 3). The fourth
parameter of R8, the completion latency, stands in State as well (log 2). -/
structure Params where
  /-- BLOCK_BASE, the byte address of the aperture. -/
  blockBase : Nat
  /-- MAX_IN_BITS, the capacity of IN in bits. -/
  maxInBits : Nat
  /-- MAX_OUT_BITS, the capacity of OUT and of each TRACE buffer in bits. -/
  maxOutBits : Nat
  deriving DecidableEq, Repr

/-- The parameters `State.reset` holds: capacities as 95_test_vectors.md takes them, base 0.
DESIGN CHOICE (log 3): R8 leaves them open. -/
def Params.default : Params :=
  { blockBase := 0, maxInBits := 524288, maxOutBits := 524288 }

/-- The aperture size in bytes (R8, R49). -/
def apertureBytes : Nat := 0x60000

/-- FREE VALUE. What an unspecified bit of a buffer reads as (R40: "These reads return any value, and a model draws a
fresh value for each read, under no law"): bit `index` of draw number `draw`. It has no body, so nothing can be proved
of its value; every read that may draw uses a draw number of its own (log 4). -/
opaque Config.anyBit (draw index : Nat) : Bool

end Sys2Proof
end

