-- ==== Sys2Proof/Syntax.lean ====
section
/-! DEFINITION. The commands: one constructor for each row of spec/opcode_table.json (R72). A command word has no register,
immediate or mode field (R71), so no constructor has an argument. -/

namespace Sys2Proof

/-- The eighteen commands of the block (R72). -/
inductive Instr where
  /-- XFER `0x01` (R78). -/
  | xfer
  /-- CC_ENC `0x10` (R79). -/
  | ccEnc
  /-- CC_DEC `0x11` (R80). -/
  | ccDec
  /-- BYTE_ENC `0x12` (R81). -/
  | byteEnc
  /-- BYTE_DEC `0x13` (R82). -/
  | byteDec
  /-- BIT_ENC `0x14` (R83). -/
  | bitEnc
  /-- BIT_DEC `0x15` (R84). -/
  | bitDec
  /-- PAR_ENC `0x20` (R86). -/
  | parEnc
  /-- PAR_VER `0x21` (R87). -/
  | parVer
  /-- CS_ENC `0x22` (R88). -/
  | csEnc
  /-- CS_VER `0x23` (R89). -/
  | csVer
  /-- CRC_ENC `0x24` (R90). -/
  | crcEnc
  /-- CRC_VER `0x25` (R91). -/
  | crcVer
  /-- CRC_STRIP `0x26` (R92). -/
  | crcStrip
  /-- HAM_ENC `0x30` (R95). -/
  | hamEnc
  /-- HAM_DEC `0x31` (R96). -/
  | hamDec
  /-- PIPE_TX `0x40` (R101). -/
  | pipeTx
  /-- PIPE_RX `0x41` (R102). -/
  | pipeRx
  deriving DecidableEq, Repr

end Sys2Proof
end

