-- ==== Sys2Proof/WellFormed.lean ====
section
/-! DEFINITION. What is checked of a term before it means anything. -/

namespace Sys2Proof

/-- A command is well-formed whatever it is: "A command word has no register, immediate or mode field" (R71), so there is
no field whose value could be out of range. -/
def Instr.wellFormed : Instr → Bool
  | .xfer | .ccEnc | .ccDec | .byteEnc | .byteDec | .bitEnc | .bitDec | .parEnc | .parVer | .csEnc | .csVer
  | .crcEnc | .crcVer | .crcStrip | .hamEnc | .hamDec | .pipeTx | .pipeRx => true

/-- The constraint R8 puts on a buffer capacity: "a multiple of 32, 2048 <= MAX_IN_BITS <= 524288". -/
abbrev capacityWf (n : Nat) : Prop := n % 32 = 0 ∧ 2048 ≤ n ∧ n ≤ 524288

/-- The constraints R8 puts on the parameters. -/
abbrev Params.wf (p : Params) : Prop :=
  p.blockBase % 0x80000 = 0 ∧ capacityWf p.maxInBits ∧ capacityWf p.maxOutBits

/-- A command word keeps format C: `CMD[31:8]` is 0 (R70). The decoder names each check that fails. -/
abbrev commandReservedZero (w : Word) : Prop := w.extractLsb' 8 24 = 0

end Sys2Proof
end

