-- ==== Sys2Proof/Decode.lean ====
section
/-! DEFINITION. Command words: the opcode map (R72), the decoder, total on all words and rejecting by name (R73), and the
encoder (R70). -/

namespace Sys2Proof

/-- Why a command word is illegal (R73). -/
inductive DecodeReject where
  /-- `CMD[31:8]` is not 0. -/
  | reservedNonZero
  /-- The OPCODE is none of the eighteen values. -/
  | unassignedOpcode
  deriving DecidableEq, Repr

/-- The opcode map, row by row as R72 prints it. -/
def opcodeMap : List (Byte × Instr) :=
  [(0x01, .xfer),
   (0x10, .ccEnc), (0x11, .ccDec), (0x12, .byteEnc), (0x13, .byteDec), (0x14, .bitEnc), (0x15, .bitDec),
   (0x20, .parEnc), (0x21, .parVer), (0x22, .csEnc), (0x23, .csVer), (0x24, .crcEnc), (0x25, .crcVer), (0x26, .crcStrip),
   (0x30, .hamEnc), (0x31, .hamDec),
   (0x40, .pipeTx), (0x41, .pipeRx)]

/-- The OPCODE field `CMD[7:0]` (R70). -/
def opcodeField (w : Word) : Byte := w.extractLsb' 0 8

/-- Decoding a command word (R72, R73, R75): the reserved bits are checked first, then the opcode is looked up. -/
def decode (w : Word) : Except DecodeReject Instr :=
  if commandReservedZero w then
    match opcodeMap.find? (fun row => row.1 == opcodeField w) with
    | some row => .ok row.2
    | none => .error .unassignedOpcode
  else .error .reservedNonZero

/-- The OPCODE of each command (R72). -/
def Instr.opcode : Instr → Byte
  | .xfer => 0x01
  | .ccEnc => 0x10
  | .ccDec => 0x11
  | .byteEnc => 0x12
  | .byteDec => 0x13
  | .bitEnc => 0x14
  | .bitDec => 0x15
  | .parEnc => 0x20
  | .parVer => 0x21
  | .csEnc => 0x22
  | .csVer => 0x23
  | .crcEnc => 0x24
  | .crcVer => 0x25
  | .crcStrip => 0x26
  | .hamEnc => 0x30
  | .hamDec => 0x31
  | .pipeTx => 0x40
  | .pipeRx => 0x41

/-- Encoding: format C, the opcode with 24 zero bits above it (R70). -/
def encode (i : Instr) : Word := (0 : BitVec 24) ++ i.opcode

/-- The command word made of the `nbits` bits of `w` that an opcode-table row gives, every bit above them 0. The host
writes the word whole (R51), so no byte order plays a part. -/
def tableWord (nbits w : Nat) : Word := BitVec.ofNat 32 (w % 2 ^ nbits)

/-- What the decoder reads from a word of the opcode table; a row wider than the one 32-bit format (R70) is no command. -/
def decodeTableWord (nbits w : Nat) : Option Instr :=
  if nbits ≤ 32 then (decode (tableWord nbits w)).toOption else none

end Sys2Proof
end

