-- ==== Sys2Proof/Machine/BitStrings.lean ====
section
/-! DEFINITION. The fixed constants (R7) and the primitives on bit strings (R9, R12 to R20): pure functions of their
arguments. -/

namespace Sys2Proof.Machine

/-- `FLAG`, the byte-stuffing flag octet (R7). -/
def FLAG : Byte := 0x7E
/-- `ESC`, the byte-stuffing escape octet (R7). -/
def ESC : Byte := 0x7D
/-- `BITFLAG`, the bit-stuffing flag pattern `01111110` (R7). -/
def BITFLAG : Bits := [false, true, true, true, true, true, true, false]
/-- `CC_MAX`, the largest character-count header value (R7). -/
def CC_MAX : Nat := 255
/-- `STUFF_RUN`, the 1-run length after which a 0 is stuffed (R7). -/
def STUFF_RUN : Nat := 5
/-- `G`, the CRC-32 generator: 33 bits, degree 32 (R7). -/
def G : Nat := 0x104C11DB7
/-- `CRC_PREPAD`, the zero bits appended before division (R7). -/
def CRC_PREPAD : Nat := 64
/-- `CRC_LEN`, the CRC trailer length (R7). -/
def CRC_LEN : Nat := 32
/-- `CS_LEN`, the checksum trailer length (R7). -/
def CS_LEN : Nat := 8
/-- `PAR_LEN`, the parity trailer length (R7). -/
def PAR_LEN : Nat := 1

/-- `zeros(k)` (R9). -/
def zeros (k : Nat) : Bits := List.replicate k false

/-- The slice `x[a..b)`, empty when `a >= b` (R9). -/
def slice (x : Bits) (a b : Nat) : Bits := (x.take b).drop a

/-- `bitsN(v)`, most significant bit first: `bits8(v)[j] = v[7-j:7-j]` for N = 8 (R12). -/
def bitsOf {n : Nat} (v : BitVec n) : Bits := (List.range n).map v.getMsbD

/-- `val(x)`, the first bit most significant (R13). -/
def val (x : Bits) : Nat := x.foldl (fun v b => 2 * v + b.toNat) 0

/-- `octets(x)` of a string of 8k bits (R12); of any other string, the octets of its longest prefix of whole octets. -/
def octets : Bits → List Byte
  | b0 :: b1 :: b2 :: b3 :: b4 :: b5 :: b6 :: b7 :: rest =>
      BitVec.ofNat 8 (val [b0, b1, b2, b3, b4, b5, b6, b7]) :: octets rest
  | _ => []

/-- `from_octets(o_0 .. o_{k-1})` (R12). -/
def fromOctets (o : List Byte) : Bits := o.flatMap bitsOf

/-- How many bits are missing to the next multiple of 8: `(8 - len(x) mod 8) mod 8` (R14, R15). -/
def padLength (x : Bits) : Nat := (8 - x.length % 8) % 8

/-- `pad_left8(x)` (R14). -/
def padLeft8 (x : Bits) : Bits := zeros (padLength x) ++ x

/-- `pad_right8(x)` (R15). -/
def padRight8 (x : Bits) : Bits := x ++ zeros (padLength x)

/-- `xor_all(x)` (R16). -/
def xorAll (x : Bits) : Bool := x.foldr Bool.xor false

/-- The loop of `fold8` (R17), at most `fuel` times. -/
def fold8Loop : Nat → Nat → Nat
  | 0, v => v
  | fuel + 1, v => if 0xFF < v then fold8Loop fuel ((v &&& 0xFF) + (v >>> 8)) else v

/-- `fold8(v)` (R17): `v <- (v AND 0xFF) + (v >> 8)` while `v > 0xFF`. Each turn lowers v, so v turns are enough. -/
def fold8 (v : Nat) : Nat := fold8Loop v v

/-- The loop of `crc_rem` (R18), at most `fuel` times. -/
def crcRemLoop : Nat → Nat → Nat
  | 0, v => v
  | fuel + 1, v => if 2 ^ 32 ≤ v then crcRemLoop fuel (v ^^^ (G <<< (v.log2 - 32))) else v

/-- `crc_rem(V)` (R18). Each turn clears the most significant set bit, so as many turns as V has bits are enough. -/
def crcRem (v : Nat) : Nat := crcRemLoop (v.log2 + 1) v

/-- `is_pow2(j)` (R19). -/
def isPow2 (j : Nat) : Bool := j == 2 ^ j.log2

/-- Whether position `j` is in the covering set of the power of two `p` (R20): `(j AND p) != 0`. -/
def covers (p j : Nat) : Bool := (j &&& p) != 0

/-- The powers of two `p <= n`, in rising order (R95, R96). -/
def powersUpTo (n : Nat) : List Nat := (List.range (n.log2 + 1)).filterMap fun i => if 2 ^ i ≤ n then some (2 ^ i) else none

end Sys2Proof.Machine
end

