-- ==== Sys2Proof/Machine/State.lean ====
section
/-! DEFINITION. The state of the block (10_state.md), as plain data, the reasons a host step can fault, and the state after
reset (R124). -/

namespace Sys2Proof.Machine

/-- The engine's phase (R25). STATUS.BUSY is 1 exactly when it is `busy`. -/
inductive Phase where
  | idle
  | busy
  deriving DecidableEq, Repr

/-- STATUS.CORR (R28): 0 CLEAN or none run, 1 CORRECTED, 2 UNCORRECTABLE. Value 3 is never produced (U13, log 13). -/
inductive Corr where
  | clean
  | corrected
  | uncorrectable
  deriving DecidableEq, Repr

/-- The hard errors (R107), STATUS.ERR codes 1 to 6. Code 0 NONE is the absence of one; 7 to 15 are never produced. -/
inductive HardError where
  /-- 1: the character-count encoder's octet count is above 255. -/
  | frameTooLarge
  /-- 2: the character-count decoder's input has fewer than 8 bits. -/
  | frameTooShort
  /-- 3: the checksum verifier's input length is not a multiple of 8, or is under 16. -/
  | misalignedFrame
  /-- 4: a CONFIG strategy field holds a reserved value. -/
  | configError
  /-- 5: the command word is illegal (R73). -/
  | illegalCmd
  /-- 6: the input or a produced string exceeds a buffer (R109). -/
  | capacity
  deriving DecidableEq, Repr

/-- The strategy field STATUS.ERR_STAGE blames (R28, R99): 1 FRAMING, 2 CORRECTION, 3 DETECTION; 0 is the absence of one. -/
inductive Stage where
  | framing
  | correction
  | detection
  deriving DecidableEq, Repr

/-- The diagnostic flags of DIAG (R29), bits 0 to 6 in this order. Bits 31:7 are reserved and read 0. -/
structure Diag where
  lenMismatch : Bool := false
  missingDelim : Bool := false
  incompleteEsc : Bool := false
  bareFlag : Bool := false
  uncorrectable : Bool := false
  short : Bool := false
  misalignedTail : Bool := false
  deriving DecidableEq, Repr

/-- CONFIG (R30). Strategy fields "store reserved values as written and read them back"; bits 7 and 31:9 hold nothing. -/
structure ConfigReg where
  framing : BitVec 2
  correction : BitVec 2
  detection : BitVec 3
  traceEn : Bool
  deriving DecidableEq, Repr

/-- PADS (R31). Bits 15:8 hold nothing. -/
structure PadsReg where
  parityPad : BitVec 8
  crcPad : BitVec 16
  deriving DecidableEq, Repr

/-- A bit buffer's storage (R39): the bits ever written, as (index, bit) cells with strictly rising indexes (log 5). -/
abbrev BitMem := List (Nat × Bool)

/-- The canonical form of a buffer: indexes strictly rising. An unlisted bit has no value of its own (its reads are free
values, R40), so no cell can equal what an unlisted index reads as. -/
abbrev BitMem.wf (m : BitMem) : Prop := m.Pairwise (fun a b => a.1 < b.1)

/-- What the outside world does to the block (R24, R123): one entry is one host step or one assertion of reset.
`width` is the width of the access in bytes. -/
inductive Input where
  /-- `MemRead(addr, width)`. -/
  | read (addr width : Nat)
  /-- `MemWrite(addr, width, v)`. -/
  | write (addr width : Nat) (v : Word)
  /-- The platform asserts the reset input. -/
  | reset
  deriving DecidableEq, Repr

/-- Why a host step fails (R50, R111, R49). Raised by `hostAccess` alone; `step` reports it to the host in `resp` and the
block goes on unchanged (log 6). Safe: nothing is stored and no value is returned. -/
inductive Fault where
  /-- Raised by `hostAccess` for an access at an address in no part of the aperture: it does not reach the block (R49). Safe. -/
  | outsideAperture
  /-- Raised by `hostAccess` for an access that is not 32 bits wide or not 4-byte aligned: a bus error response (R50). Safe. -/
  | busRefused
  deriving DecidableEq, Repr

/-- Why a command has no meaning. Every command of the opcode table has one, so no step raises any. Safe. -/
inductive Refusal where
  /-- Raised by an arm of `exec` for a command that is not modelled yet: there is none. Safe. -/
  | notModelled (mnemonic : String)
  deriving DecidableEq, Repr

/-- The block's answer to the last host access: the model's own record of what crossed the bus (log 6). -/
inductive Response where
  /-- No access was answered since reset. -/
  | none
  /-- A read returned this word. -/
  | data (v : Word)
  /-- A write was taken by the bus (ignored writes as well, R111). -/
  | ack
  /-- The access failed: the host step's fault. -/
  | failed (f : Fault)
  deriving DecidableEq, Repr

/-- The state of the block. INVENTORY.md's '## State' lists the rule and the reset value of each field. -/
structure State where
  /-- BLOCK_BASE, MAX_IN_BITS and MAX_OUT_BITS (R8); no step changes them. -/
  params : Params
  /-- The engine's phase, STATUS.BUSY (R25, R28). -/
  phase : Phase
  /-- CMD, the last accepted command word (R27). -/
  cmd : Word
  /-- STATUS.DONE (R28). -/
  done : Bool
  /-- STATUS.VALID (R28). -/
  valid : Bool
  /-- STATUS.CORR (R28). -/
  corr : Corr
  /-- STATUS.ERR (R28, R107). -/
  err : Option HardError
  /-- STATUS.ERR_STAGE (R28, R107). -/
  errStage : Option Stage
  /-- STATUS.OVERRUN (R28, R45). -/
  overrun : Bool
  /-- DIAG (R29). -/
  diag : Diag
  /-- CONFIG (R30). -/
  config : ConfigReg
  /-- PADS (R31). -/
  pads : PadsReg
  /-- IN_LEN (R32). -/
  inLen : BitVec 20
  /-- OUT_LEN (R33). -/
  outLen : BitVec 20
  /-- SYNDROME (R34). -/
  syndrome : BitVec 20
  /-- CRC_VALUE (R35). -/
  crcValue : BitVec 32
  /-- CSUM_VALUE (R36). -/
  csumValue : BitVec 8
  /-- TRACE0_LEN (R37). -/
  trace0Len : BitVec 20
  /-- TRACE1_LEN (R37). -/
  trace1Len : BitVec 20
  /-- TRACE2_LEN (R37). -/
  trace2Len : BitVec 20
  /-- The IN buffer (R39). -/
  inBuf : BitMem
  /-- The OUT buffer (R39). -/
  out : BitMem
  /-- The TRACE0 buffer (R39). -/
  trace0 : BitMem
  /-- The TRACE1 buffer (R39). -/
  trace1 : BitMem
  /-- The TRACE2 buffer (R39). -/
  trace2 : BitMem
  /-- Host steps left before the held command completes: what is left of its completion latency (R8, R42; log 2). -/
  waiting : Nat
  /-- The completion latencies of the commands still to be accepted, the next one first; past the list, 0 (R8; log 2). -/
  latencies : List Nat
  /-- What the outside world will still do, the next access first (log 1). -/
  inputs : List Input
  /-- The answer to the last host access (log 6). -/
  resp : Response
  /-- How many draws of unspecified bits were made: the argument of `Config.anyBit` (R40; log 4). -/
  draws : Nat
  deriving DecidableEq, Repr

/-- The answer of one step of the machine. -/
abbrev StepResult := Host.Outcome State Fault Refusal

/-- The state after reset (R124) of a block with the given parameters, over the given outside world: what its platform
fixes (`params`, `latencies`), what it will still do (`inputs`), and the draws already made. "IN buffer, every bit:
unspecified", and so for OUT and the traces, is the buffer in which no bit has been written. -/
def State.resetWith (params : Params) (latencies : List Nat) (inputs : List Input) (draws : Nat) : State where
  params := params
  phase := .idle
  cmd := 0
  done := false
  valid := false
  corr := .clean
  err := .none
  errStage := .none
  overrun := false
  diag := {}
  config := { framing := 0, correction := 0, detection := 0, traceEn := false }
  pads := { parityPad := 7, crcPad := 64 }
  inLen := 0
  outLen := 0
  syndrome := 0
  crcValue := 0
  csumValue := 0
  trace0Len := 0
  trace1Len := 0
  trace2Len := 0
  inBuf := []
  out := []
  trace0 := []
  trace1 := []
  trace2 := []
  waiting := 0
  latencies := latencies
  inputs := inputs
  resp := .none
  draws := draws

/-- The machine right after reset: R124's values, the default parameters (log 3), nothing to do yet (log 1) and every
command completing at the step after its acceptance (log 2). -/
def State.reset : State := State.resetWith Params.default [] [] 0

end Sys2Proof.Machine
end

