-- ==== Sys2Proof/Machine/Flags.lean ====
section
/-! DEFINITION. The registers whose words are made of fields: STATUS (R28), DIAG (R29), CONFIG (R30) and PADS (R31), and the
codes of their fields (R107). "The block has no condition codes" (R48): these are its only flags. -/

namespace Sys2Proof.Machine

/-- The code of STATUS.CORR (R28). -/
def Corr.code : Corr → BitVec 2
  | .clean => 0
  | .corrected => 1
  | .uncorrectable => 2

/-- The code of a hard error in STATUS.ERR (R107). -/
def HardError.code : HardError → BitVec 4
  | .frameTooLarge => 1
  | .frameTooShort => 2
  | .misalignedFrame => 3
  | .configError => 4
  | .illegalCmd => 5
  | .capacity => 6

/-- STATUS.ERR, 0 for NONE (R107). -/
def errCode : Option HardError → BitVec 4
  | none => 0
  | some e => e.code

/-- STATUS.ERR_STAGE, 0 for none or a unit command (R28). -/
def stageCode : Option Stage → BitVec 2
  | none => 0
  | some .framing => 1
  | some .correction => 2
  | some .detection => 3

/-- STATUS.BUSY "reads 1 exactly when the phase is `BUSY`" (R25). -/
def Phase.isBusy : Phase → Bool
  | .idle => false
  | .busy => true

/-- The STATUS word (R28), bit 31 first: reserved 31:16, OVERRUN 15, reserved 14, ERR_STAGE 13:12, ERR 11:8, reserved 7:5,
CORR 4:3, VALID 2, DONE 1, BUSY 0. -/
def State.statusWord (s : State) : Word :=
  0#16 ++ BitVec.ofBool s.overrun ++ 0#1 ++ stageCode s.errStage ++ errCode s.err ++ 0#3 ++ s.corr.code
    ++ BitVec.ofBool s.valid ++ BitVec.ofBool s.done ++ BitVec.ofBool s.phase.isBusy

/-- The flags of both (R103: "the bitwise OR"). -/
def Diag.or (a b : Diag) : Diag where
  lenMismatch := a.lenMismatch || b.lenMismatch
  missingDelim := a.missingDelim || b.missingDelim
  incompleteEsc := a.incompleteEsc || b.incompleteEsc
  bareFlag := a.bareFlag || b.bareFlag
  uncorrectable := a.uncorrectable || b.uncorrectable
  short := a.short || b.short
  misalignedTail := a.misalignedTail || b.misalignedTail

/-- The DIAG word (R29), bit 31 first: reserved 31:7, then flags 6 to 0. -/
def Diag.word (d : Diag) : Word :=
  0#25 ++ BitVec.ofBool d.misalignedTail ++ BitVec.ofBool d.short ++ BitVec.ofBool d.uncorrectable ++ BitVec.ofBool d.bareFlag
    ++ BitVec.ofBool d.incompleteEsc ++ BitVec.ofBool d.missingDelim ++ BitVec.ofBool d.lenMismatch

/-- The CONFIG word (R30), bit 31 first: reserved 31:9, TRACE_EN 8, reserved 7, DETECTION 6:4, CORRECTION 3:2, FRAMING 1:0. -/
def ConfigReg.word (c : ConfigReg) : Word :=
  0#23 ++ BitVec.ofBool c.traceEn ++ 0#1 ++ c.detection ++ c.correction ++ c.framing

/-- What a write of `v` stores in CONFIG (R30): the strategy fields as written, reserved bits ignored. -/
def ConfigReg.ofWord (v : Word) : ConfigReg where
  framing := v.extractLsb' 0 2
  correction := v.extractLsb' 2 2
  detection := v.extractLsb' 4 3
  traceEn := v.getLsbD 8

/-- The PADS word (R31): bits 15:8 read 0. -/
def PadsReg.word (p : PadsReg) : Word := p.crcPad ++ 0#8 ++ p.parityPad

/-- What a write of `v` stores in PADS (R31): bits 15:8 are ignored. -/
def PadsReg.ofWord (v : Word) : PadsReg where
  parityPad := v.extractLsb' 0 8
  crcPad := v.extractLsb' 16 16

/-- A length register's or SYNDROME's word: bits 19:0, the rest reads 0 (R32 to R34, R37). -/
def lengthWord (n : BitVec 20) : Word := n.setWidth 32

/-- What a write of `v` stores in IN_LEN: bits 19:0 (R32). -/
def lengthOfWord (v : Word) : BitVec 20 := v.extractLsb' 0 20

end Sys2Proof.Machine
end

