-- ==== Sys2Proof/Machine/Buffers.lean ====
section
/-! DEFINITION. The operations on bit buffers: reading one bit, reading and writing strings of bits, and the packing of a
buffer window's words (R39, R40, R52). -/

namespace Sys2Proof.Machine

/-- The stored bit at an index, or nothing where no bit has been written (R40). -/
def BitMem.get (m : BitMem) (i : Nat) : Option Bool := (m.find? (fun c => c.1 == i)).map Prod.snd

/-- The bit at an index as draw number `draw` sees it: the stored bit, or a free value where none has been written (R40). -/
def BitMem.look (m : BitMem) (draw i : Nat) : Bool := (m.get i).getD (Config.anyBit draw i)

/-- The string `m[0..n)` as draw number `draw` sees it. -/
def BitMem.read (m : BitMem) (n draw : Nat) : Bits := (List.range n).map (m.look draw)

/-- The cells that hold the bits of `x` from index `a` on. -/
def BitMem.cells : Nat → Bits → BitMem
  | _, [] => []
  | a, b :: x => (a, b) :: BitMem.cells (a + 1) x

/-- `m[a..a + len(x)) <- x`: the cells below, the new ones, the cells above. -/
def BitMem.write (m : BitMem) (a : Nat) (x : Bits) : BitMem :=
  m.filter (fun c => c.1 < a) ++ BitMem.cells a x ++ m.filter (fun c => a + x.length ≤ c.1)

/-- The word whose bits are those of a string of 32, the first bit in word bit 31 (R52). -/
def wordOfBits (x : Bits) : Word := BitVec.ofNat 32 (val x)

/-- Word k of a buffer window (R52), as draw number `draw` sees it: a bit that is not `shown` reads as any value (R40). -/
def windowWord (m : BitMem) (shown : Nat → Bool) (draw k : Nat) : Word :=
  wordOfBits ((List.range 32).map fun j =>
    if shown (32 * k + j) then m.look draw (32 * k + j) else Config.anyBit draw (32 * k + j))

end Sys2Proof.Machine
end

