-- ==== Sys2Proof/Machine/Operands.lean ====
section
/-! DEFINITION. The operands. None is named in the command word: "Every operand is implicit and read from state" (R71, R44). -/

namespace Sys2Proof.Machine

/-- The input string `X = IN[0..IN_LEN)` (R32, R44). A bit never written since reset is a free value, drawn once for the
whole command (R40, R129). -/
def State.inString (s : State) : Bits := s.inBuf.read s.inLen.toNat s.draws

/-- The output string `OUT[0..OUT_LEN)` (R33), the operand of XFER (R78). -/
def State.outString (s : State) : Bits := s.out.read s.outLen.toNat s.draws

/-- The operand `P = PADS.PARITY_PAD`, an unsigned bit count (R31, R71). -/
def State.parityPad (s : State) : Nat := s.pads.parityPad.toNat

/-- The operand `Q = PADS.CRC_PAD`, an unsigned bit count (R31, R71). -/
def State.crcPad (s : State) : Nat := s.pads.crcPad.toNat

/-- The framing strategies (R74). -/
inductive Framing where
  | charCount
  | bitStuff
  | byteStuff
  deriving DecidableEq, Repr

/-- The correction strategies (R74). -/
inductive Correction where
  | none
  | hamming
  deriving DecidableEq, Repr

/-- The detection strategies (R74). -/
inductive Detection where
  | none
  | parity
  | checksum
  | crc32
  deriving DecidableEq, Repr

/-- CONFIG.FRAMING: 3 is reserved (R74). -/
def framingOf (f : BitVec 2) : Option Framing :=
  match f.toNat with
  | 0 => some .charCount
  | 1 => some .bitStuff
  | 2 => some .byteStuff
  | _ => none

/-- CONFIG.CORRECTION: 2 and 3 are reserved (R74). -/
def correctionOf (c : BitVec 2) : Option Correction :=
  match c.toNat with
  | 0 => some .none
  | 1 => some .hamming
  | _ => none

/-- CONFIG.DETECTION: 4 to 7 are reserved (R74). -/
def detectionOf (d : BitVec 3) : Option Detection :=
  match d.toNat with
  | 0 => some .none
  | 1 => some .parity
  | 2 => some .checksum
  | 3 => some .crc32
  | _ => none

/-- The strategies of a CONFIG, or the first reserved field in the order FRAMING, CORRECTION, DETECTION: `check(cfg)` (R100). -/
def ConfigReg.strategies (c : ConfigReg) : Except Stage (Framing × Correction × Detection) :=
  match framingOf c.framing, correctionOf c.correction, detectionOf c.detection with
  | none, _, _ => .error .framing
  | some _, none, _ => .error .correction
  | some _, some _, none => .error .detection
  | some f, some k, some d => .ok (f, k, d)

end Sys2Proof.Machine
end

