-- ==== Sys2Proof/Machine/Ops.lean ====
section
/-! DEFINITION. The shared operations on the state: acceptance (R41), completion (R42) with the result record (R43) and the hard
error (R108), the shape of a unit command (R75), the traces (R104), and the register writes (R27 to R32, R45). -/

namespace Sys2Proof.Machine

/-- The result record; its defaults are `RES0` (R43). `err` and `errStage` are none for NONE and 0. -/
structure Res where
  out : Bits := []
  valid : Bool := false
  corr : Corr := .clean
  err : Option HardError := none
  errStage : Option Stage := none
  diag : Diag := {}
  syndrome : Nat := 0
  crcValue : BitVec 32 := 0
  csumValue : BitVec 8 := 0
  deriving DecidableEq, Repr

/-- An engine: a function of its input string alone, which gives a result record or raises a hard error (R79 to R96). No
engine raises a diagnostic and then a hard error (R103), so a raise carries none. -/
abbrev Engine := Bits → Except HardError Res

/-- TAKING A HARD ERROR: the record of the abort (R108), "RES0 with err = E, err_stage = the stage named by the raise,
diag = the flags raised before the raise". There is nothing to return from (R115): the next CMD write goes on. -/
def Res.abort (e : HardError) (stage : Option Stage) (diag : Diag) : Res :=
  { err := some e, errStage := stage, diag := diag }

/-- `OUT[0..len) <- x ; OUT_LEN <- len` (R42; twenty bits hold the length: log 16). -/
def State.writeOut (s : State) (x : Bits) : State :=
  { s with out := s.out.write 0 x, outLen := BitVec.ofNat 20 x.length }

/-- The result registers and the phase, in the one atomic step of a completion (R42). -/
def State.writeResult (s : State) (r : Res) : State :=
  { s with
    phase := .idle, done := true, valid := r.valid, corr := r.corr, err := r.err, errStage := r.errStage, diag := r.diag,
    syndrome := BitVec.ofNat 20 r.syndrome, crcValue := r.crcValue, csumValue := r.csumValue,
    waiting := 0, draws := s.draws + 1 }

/-- The completion of every command except XFER (R42). -/
def State.complete (s : State) (r : Res) : State := (s.writeOut r.out).writeResult r

/-- The completion of a command word that is no command: a hard error ILLEGAL_CMD, "which changes nothing but the result
registers, and OUT_LEN becomes 0" (R73; log 10 on a word whose low byte is XFER's opcode). -/
def State.completeIllegal (s : State) : State := s.complete (Res.abort .illegalCmd none {})

/-- The check after the rule of a command: an output above MAX_OUT_BITS is CAPACITY (R75, R109). It is raised after the engine, so the
flags the engine raised stay in DIAG (R29, R108, D10; DEDUCED, log 18: R75's pseudocode writes `RES0`). -/
def guardOutput (p : Params) (r : Res) : Res :=
  if r.err = none ∧ p.maxOutBits < r.out.length then Res.abort .capacity none r.diag else r

/-- The result record of a unit command (R75): input CAPACITY, then the engine, then output CAPACITY (R110). -/
def unitResult (s : State) (engine : Engine) : Res :=
  if s.params.maxInBits < s.inLen.toNat then Res.abort .capacity none {}
  else
    match engine s.inString with
    | .error e => Res.abort e none {}
    | .ok r => guardOutput s.params r

/-- A unit command on IN (R22). -/
def State.completeUnit (s : State) (engine : Engine) : State := s.complete (unitResult s engine)

/-- `IN[0..len) <- x ; IN_LEN <- len` (R78). -/
def State.writeIn (s : State) (x : Bits) : State :=
  { s with inBuf := s.inBuf.write 0 x, inLen := BitVec.ofNat 20 x.length }

/-- A TRACE buffer and its length after a pipeline command: the recorded output of the stage, or length 0 (R104). -/
def traceAfter (m : BitMem) (recorded : Option Bits) : BitMem × BitVec 20 :=
  match recorded with
  | some x => (m.write 0 x, BitVec.ofNat 20 x.length)
  | none => (m, 0)

/-- The traces of a pipeline command, from the outputs of the stages that completed, in stage order (R104). -/
def State.writeTraces (s : State) (stages : List Bits) : State :=
  let recorded := if s.config.traceEn then stages else []
  { s with
    trace0 := (traceAfter s.trace0 recorded[0]?).1, trace0Len := (traceAfter s.trace0 recorded[0]?).2,
    trace1 := (traceAfter s.trace1 recorded[1]?).1, trace1Len := (traceAfter s.trace1 recorded[1]?).2,
    trace2 := (traceAfter s.trace2 recorded[2]?).1, trace2Len := (traceAfter s.trace2 recorded[2]?).2 }

/-- Acceptance of a command word (R41). The completion latency is the platform's next one (R8, R137; log 2). -/
def State.accept (s : State) (v : Word) : State :=
  { s with cmd := v, phase := .busy, done := false, waiting := s.latencies.headD 0, latencies := s.latencies.tail }

/-- A write to STATUS: "A write with bit 15 = 1 clears OVERRUN. Every other bit of a STATUS write is ignored" (R28). -/
def State.writeStatus (s : State) (v : Word) : State :=
  { s with overrun := s.overrun && !v.getLsbD 15 }

/-- A write ignored because the engine is BUSY (R45). -/
def State.setOverrun (s : State) : State := { s with overrun := true }

/-- A write to CONFIG while IDLE (R30). -/
def State.writeConfig (s : State) (v : Word) : State := { s with config := ConfigReg.ofWord v }

/-- A write to PADS while IDLE (R31). -/
def State.writePads (s : State) (v : Word) : State := { s with pads := PadsReg.ofWord v }

/-- A write to IN_LEN while IDLE (R32). -/
def State.writeInLen (s : State) (v : Word) : State := { s with inLen := lengthOfWord v }

/-- A write to word k of IN_DATA while IDLE (R54): all 32 bits are stored; past the capacity the word has no storage. -/
def State.writeInWord (s : State) (k : Nat) (v : Word) : State :=
  if k < s.params.maxInBits / 32 then { s with inBuf := s.inBuf.write (32 * k) (bitsOf v) } else s

/-- The answer to a host access (log 6). -/
def State.respond (s : State) (r : Response) : State := { s with resp := r }

/-- The outside world is left with these inputs (log 1). -/
def State.withInputs (s : State) (rest : List Input) : State := { s with inputs := rest }

/-- The held command is left with this many host steps to wait (log 2). -/
def State.withWaiting (s : State) (n : Nat) : State := { s with waiting := n }

/-- One draw of unspecified bits is used up (R40; log 4). -/
def State.countDraw (s : State) : State := { s with draws := s.draws + 1 }

/-- The reset input (R123, R125): "every piece of state in the table of rule R124 in one step". The platform's parameters
and latencies, the outside world and the draw count are no state of the block (log 12). -/
def State.assertReset (s : State) : State := State.resetWith s.params s.latencies s.inputs s.draws

end Sys2Proof.Machine
end

