-- ==== Sys2Proof/Machine/Bus.lean ====
section
/-! DEFINITION. The host's side: the register map (R26), reads and writes of the aperture (20_memory.md, R27 to R38, R45),
bus refusals (R50, R111), and one step of the outside world. -/

namespace Sys2Proof.Machine

/-- What an aperture offset names (R26). Window words carry their word index. -/
inductive Target where
  | cmd
  | status
  | diag
  | config
  | pads
  | inLen
  | outLen
  | syndrome
  | crcValue
  | csumValue
  | trace0Len
  | trace1Len
  | trace2Len
  | reserved
  | inData (k : Nat)
  | outData (k : Nat)
  | trace0Data (k : Nat)
  | trace1Data (k : Nat)
  | trace2Data (k : Nat)
  deriving DecidableEq, Repr

/-- The register of word `w` of the first 64 KiB (R26): offsets `0x034` to `0xFFFC` are reserved. -/
def registerOf (w : Nat) : Target :=
  match w with
  | 0 => .cmd
  | 1 => .status
  | 2 => .diag
  | 3 => .config
  | 4 => .pads
  | 5 => .inLen
  | 6 => .outLen
  | 7 => .syndrome
  | 8 => .crcValue
  | 9 => .csumValue
  | 10 => .trace0Len
  | 11 => .trace1Len
  | 12 => .trace2Len
  | _ => .reserved

/-- The register map (R26), of a 4-byte-aligned offset in the aperture. -/
def targetOf (off : Nat) : Target :=
  let k := off % 0x10000 / 4
  match off / 0x10000 with
  | 0 => registerOf k
  | 1 => .inData k
  | 2 => .outData k
  | 3 => .trace0Data k
  | 4 => .trace1Data k
  | _ => .trace2Data k

/-- A word of OUT_DATA or TRACEk_DATA (R55): 0 past the capacity, in either phase (log 9); otherwise a bit at or beyond the
length register, or any bit while BUSY, reads as any value (R40). -/
def State.resultWindow (s : State) (m : BitMem) (len : BitVec 20) (k : Nat) : Word :=
  if k < s.params.maxOutBits / 32 then windowWord m (fun i => !s.phase.isBusy && decide (i < len.toNat)) s.draws k else 0

/-- A word of IN_DATA (R54): 0 past the capacity; otherwise the stored bits, beyond IN_LEN too. -/
def State.inWindow (s : State) (k : Nat) : Word :=
  if k < s.params.maxInBits / 32 then windowWord s.inBuf (fun _ => true) s.draws k else 0

/-- The word a host read returns (R27 to R38, R54, R55). -/
def State.readTarget (s : State) : Target → Word
  | .cmd => s.cmd
  | .status => s.statusWord
  | .diag => s.diag.word
  | .config => s.config.word
  | .pads => s.pads.word
  | .inLen => lengthWord s.inLen
  | .outLen => lengthWord s.outLen
  | .syndrome => lengthWord s.syndrome
  | .crcValue => s.crcValue
  | .csumValue => s.csumValue.setWidth 32
  | .trace0Len => lengthWord s.trace0Len
  | .trace1Len => lengthWord s.trace1Len
  | .trace2Len => lengthWord s.trace2Len
  | .reserved => 0
  | .inData k => s.inWindow k
  | .outData k => s.resultWindow s.out s.outLen k
  | .trace0Data k => s.resultWindow s.trace0 s.trace0Len k
  | .trace1Data k => s.resultWindow s.trace1 s.trace1Len k
  | .trace2Data k => s.resultWindow s.trace2 s.trace2Len k

/-- A write that takes effect while IDLE, and while BUSY "is ignored and sets `STATUS.OVERRUN <- 1`" (R45). -/
def State.whenIdle (s : State) (write : State → State) : State :=
  match s.phase with
  | .idle => write s
  | .busy => s.setOverrun

/-- The effect of a host write (R41, R28, R30 to R32, R54, R45). "Writes to read-only and reserved offsets are ignored in
both phases and do not set OVERRUN" (logs 7 and 8). -/
def State.writeTarget (s : State) (v : Word) : Target → State
  | .cmd => s.whenIdle fun s => s.accept v
  | .status => s.writeStatus v
  | .config => s.whenIdle fun s => s.writeConfig v
  | .pads => s.whenIdle fun s => s.writePads v
  | .inLen => s.whenIdle fun s => s.writeInLen v
  | .inData k => s.whenIdle fun s => s.writeInWord k v
  | .diag | .outLen | .syndrome | .crcValue | .csumValue | .trace0Len | .trace1Len | .trace2Len | .reserved => s
  | .outData _ | .trace0Data _ | .trace1Data _ | .trace2Data _ => s

/-- Whether an access is taken by the block: its address lies in the aperture (R49), and it is 4 bytes wide and 4-byte
aligned (R50), tested in this order (log 17). The offset it names, or the fault of the host step. -/
def busOffset (p : Params) (addr width : Nat) : Except Fault Nat :=
  if addr < p.blockBase ∨ p.blockBase + apertureBytes ≤ addr then .error .outsideAperture
  else if width ≠ 4 ∨ addr % 4 ≠ 0 then .error .busRefused
  else .ok (addr - p.blockBase)

/-- ONE HOST STEP, or the assertion of reset (R24, R60, R123). An access the block does not take is "a fault of the host
step" (R50, R111) and changes nothing. -/
def hostAccess (s : State) : Input → StepResult
  | .read addr width =>
      match busOffset s.params addr width with
      | .error f => .fault f
      | .ok off => .next (s.countDraw.respond (.data (s.readTarget (targetOf off))))
  | .write addr width v =>
      match busOffset s.params addr width with
      | .error f => .fault f
      | .ok off => .next ((s.writeTarget v (targetOf off)).respond .ack)
  | .reset => .next s.assertReset

/-- A host step as the machine takes it: a fault of the host step is reported to the host "as a failed access" (R111), and
the block, which the access did not change, goes on (log 6). -/
def serve (s : State) (i : Input) : StepResult :=
  match hostAccess s i with
  | .fault f => .next (s.respond (.failed f))
  | answer => answer

/-- The next step of the outside world; with none left, nothing happens (R122; log 11). -/
def hostStep (s : State) : StepResult :=
  match s.inputs with
  | [] => .next s
  | i :: rest => serve (s.withInputs rest) i

end Sys2Proof.Machine
end

