-- ==== Sys2Proof/Machine/BitStringUtility.lean ====
section
/-! DEFINITION. The BitString utility family: XFER (40_bitstring.md R78). -/

namespace Sys2Proof.Machine

/-- XFER: copy OUT to IN (R78). On CAPACITY, IN and IN_LEN are left unchanged; OUT and OUT_LEN are never written (R42). -/
def execXfer (s : State) : StepResult :=
  if s.params.maxInBits < s.outLen.toNat then .next (s.writeResult (Res.abort .capacity none {}))
  else .next ((s.writeIn s.outString).writeResult {})

end Sys2Proof.Machine
end

