-- ==== Sys2Proof/Machine/Correction.lean ====
section
/-! DEFINITION. The error-correction codec (43_correction.md R94 to R96): the Hamming single-error-correcting code. Positions
are numbered from 1; position j is entry `j - 1` of the list. -/

namespace Sys2Proof.Machine

/-- The least `r' >= r` with `2^r' >= r' + m + 1`, looked for over `fuel` values. -/
def leastParity : Nat → Nat → Nat → Nat
  | 0, r, _ => r
  | fuel + 1, r, m => if r + m + 1 ≤ 2 ^ r then r else leastParity fuel (r + 1) m

/-- The parity-bit count r of m data bits: "the least integer `r >= 0` with `2^r >= r + m + 1`" (R94). `m + 1` always is
one, so looking at 0 to m + 1 is enough. -/
def parityCount (m : Nat) : Nat := leastParity (m + 1) 0 m

/-- The codeword of `n` positions from position `j` on, before the parity bits are set: 0 at a parity position, the next
data bit at any other (R95). -/
def placeData : Nat → Nat → Bits → Bits
  | _, 0, _ => []
  | j, n + 1, x => if isPow2 j then false :: placeData (j + 1) n x else x.headD false :: placeData (j + 1) n x.tail

/-- The XOR of the bits `c` holds at the positions that satisfy `sel`, the first entry being position 1. -/
def xorWhere (sel : Nat → Bool) (c : Bits) : Bool := xorAll (((c.zipIdx 1).filter fun e => sel e.2).map Prod.fst)

/-- `ham_enc` (R95): each parity bit is the XOR of its covering set, its own position excluded. -/
def hamEnc : Engine := fun x =>
  let n := parityCount x.length + x.length
  let c := placeData 1 n x
  .ok { out := (c.zipIdx 1).map fun e =>
          if isPow2 e.2 then xorWhere (fun j => covers e.2 j && j != e.2) c else e.1 }

/-- The syndrome (R96): the sum of the powers of two `p <= n` whose check, own position included, is 1. -/
def syndromeOf (c : Bits) : Nat :=
  (((powersUpTo c.length).filter fun p => xorWhere (covers p) c)).sum

/-- The bits at the positions that are no powers of two, in order (R96). -/
def dataBits (c : Bits) : Bits := ((c.zipIdx 1).filter fun e => !isPow2 e.2).map Prod.fst

/-- `c` with the bit at position `s` inverted (R96). -/
def flipPosition (s : Nat) (c : Bits) : Bits := c.modify (s - 1) (!·)

/-- `ham_dec` (R96). -/
def hamDec : Engine := fun y =>
  let s := syndromeOf y
  if s = 0 then .ok { out := dataBits y, corr := .clean, syndrome := s }
  else if s ≤ y.length then .ok { out := dataBits (flipPosition s y), corr := .corrected, syndrome := s }
  else .ok { out := dataBits y, corr := .uncorrectable, syndrome := s, diag := { uncorrectable := true } }

/-! ## The commands -/

/-- HAM_ENC (R95). -/
def execHamEnc (s : State) : StepResult := .next (s.completeUnit hamEnc)

/-- HAM_DEC (R96). -/
def execHamDec (s : State) : StepResult := .next (s.completeUnit hamDec)

end Sys2Proof.Machine
end

