-- ==== Sys2Proof/Machine/Detection.lean ====
section
/-! DEFINITION. The error-detection codec (42_detection.md R86 to R92): parity, checksum and CRC-32. "An integrity failure is
never a hard error": it is `valid = 0` beside a best-effort output. -/

namespace Sys2Proof.Machine

/-! ## Parity -/

/-- `par_enc` (R86). -/
def parEnc : Engine := fun x => .ok { out := x ++ [xorAll x] }

/-- `par_ver(y, P)` (R87): the check covers every bit; then P leading bits and the parity bit are stripped. -/
def parVer (P : Nat) : Engine := fun y =>
  let v := xorAll y == false
  if y.length < P + PAR_LEN then .ok { valid := v, diag := { short := true } }
  else .ok { out := slice y P (y.length - PAR_LEN), valid := v }

/-! ## Checksum -/

/-- The exact sum of the octets, folded once at the end (R88, R89, D38). -/
def foldedSum (o : List Byte) : Nat := fold8 (o.map BitVec.toNat).sum

/-- `cs_enc` (R88). -/
def csEnc : Engine := fun x =>
  let p := padRight8 x
  let c := ~~~(BitVec.ofNat 8 (foldedSum (octets p)))
  .ok { out := p ++ bitsOf c, csumValue := c }

/-- `cs_ver` (R89). -/
def csVer : Engine := fun y =>
  if y.length % 8 ≠ 0 ∨ y.length < 16 then .error .misalignedFrame
  else
    let s := foldedSum (octets y)
    .ok { out := slice y 0 (y.length - CS_LEN), valid := s == 0xFF, csumValue := BitVec.ofNat 8 s }

/-! ## CRC-32 -/

/-- `crc_enc` (R90). -/
def crcEnc : Engine := fun x =>
  let m := x ++ zeros CRC_PREPAD
  let crc := BitVec.ofNat 32 (crcRem (val m * 2 ^ CRC_LEN))
  .ok { out := m ++ bitsOf crc, crcValue := crc }

/-- `crc_ver` (R91). -/
def crcVer : Engine := fun y => .ok { out := y, valid := crcRem (val y) == 0 }

/-- `crc_strip(y, Q)` (R92). -/
def crcStrip (Q : Nat) : Engine := fun y =>
  if y.length < CRC_LEN + Q then .ok { diag := { short := true } }
  else .ok { out := slice y 0 (y.length - CRC_LEN - Q) }

/-! ## The commands -/

/-- PAR_ENC (R86). -/
def execParEnc (s : State) : StepResult := .next (s.completeUnit parEnc)

/-- PAR_VER (R87), with `P = PADS.PARITY_PAD`. -/
def execParVer (s : State) : StepResult := .next (s.completeUnit (parVer s.parityPad))

/-- CS_ENC (R88). -/
def execCsEnc (s : State) : StepResult := .next (s.completeUnit csEnc)

/-- CS_VER (R89). -/
def execCsVer (s : State) : StepResult := .next (s.completeUnit csVer)

/-- CRC_ENC (R90). -/
def execCrcEnc (s : State) : StepResult := .next (s.completeUnit crcEnc)

/-- CRC_VER (R91). -/
def execCrcVer (s : State) : StepResult := .next (s.completeUnit crcVer)

/-- CRC_STRIP (R92), with `Q = PADS.CRC_PAD`. -/
def execCrcStrip (s : State) : StepResult := .next (s.completeUnit (crcStrip s.crcPad))

end Sys2Proof.Machine
end

