-- ==== Sys2Proof/Machine/Framing.lean ====
section
/-! DEFINITION. The framing codec (41_framing.md R79 to R84): character-count, byte-stuffing and bit-stuffing. -/

namespace Sys2Proof.Machine

/-! ## Character-count -/

/-- `cc_enc` (R79). -/
def ccEnc : Engine := fun x =>
  let p := padLeft8 x
  let n := p.length / 8
  if CC_MAX < n then .error .frameTooLarge
  else .ok { out := bitsOf (BitVec.ofNat 8 n) ++ p }

/-- `cc_dec` (R80). -/
def ccDec : Engine := fun f =>
  if f.length < 8 then .error .frameTooShort
  else
    let n := val (slice f 0 8)
    if f.length - 8 < 8 * n then .ok { out := slice f 8 f.length, diag := { lenMismatch := true } }
    else .ok { out := slice f 8 (8 + 8 * n) }

/-! ## Byte-stuffing -/

/-- One octet of the stuffed body (R81): `ESC, FLAG` and `ESC, ESC` for the two special octets. -/
def stuffOctet (v : Byte) : List Byte :=
  if v = FLAG then [ESC, FLAG]
  else if v = ESC then [ESC, ESC]
  else [v]

/-- `byte_enc` (R81). -/
def byteEnc : Engine := fun x =>
  .ok { out := fromOctets (FLAG :: (octets (padLeft8 x)).flatMap stuffOctet ++ [FLAG]) }

/-- The scan of the body by `byte_dec`, with the flags it raises (R82). -/
def byteScan : List Byte → List Byte × Diag
  | [] => ([], {})
  | [v] =>
      if v = ESC then ([], { incompleteEsc := true })
      else if v = FLAG then ([FLAG], { bareFlag := true })
      else ([v], {})
  | v :: w :: rest =>
      if v = ESC then (w :: (byteScan rest).1, (byteScan rest).2)
      else if v = FLAG then (FLAG :: (byteScan (w :: rest)).1, Diag.or { bareFlag := true } (byteScan (w :: rest)).2)
      else (v :: (byteScan (w :: rest)).1, (byteScan (w :: rest)).2)

/-- The body `byte_dec` scans and the flag its delimiter check raises (R82). -/
def byteBody (o : List Byte) : List Byte × Diag :=
  if o.length < 2 then (o, { short := true })
  else if o.head? = some FLAG ∧ o.getLast? = some FLAG then (o.tail.dropLast, {})
  else (o, { missingDelim := true })

/-- `byte_dec` (R82). `octets` drops the final `len(f) mod 8` bits (D18). -/
def byteDec : Engine := fun f =>
  let tail : Diag := { misalignedTail := f.length % 8 != 0 }
  let body := byteBody (octets f)
  let scanned := byteScan body.1
  .ok { out := fromOctets scanned.1, diag := (tail.or body.2).or scanned.2 }

/-! ## Bit-stuffing -/

/-- The stuffed body of `bit_enc`; `c` is the run counter, 0 to 4 between bits (R83). -/
def stuffBits : Nat → Bits → Bits
  | _, [] => []
  | _, false :: x => false :: stuffBits 0 x
  | c, true :: x => if c + 1 = STUFF_RUN then true :: false :: stuffBits 0 x else true :: stuffBits (c + 1) x

/-- `bit_enc` (R83). -/
def bitEnc : Engine := fun x => .ok { out := BITFLAG ++ stuffBits 0 x ++ BITFLAG }

/-- The destuffing scan of `bit_dec`; `c` counts consecutive 1s emitted, with no upper bound (R84). -/
def destuffBits : Nat → Bits → Bits
  | _, [] => []
  | c, true :: y => true :: destuffBits (c + 1) y
  | c, false :: y => if c = STUFF_RUN then destuffBits 0 y else false :: destuffBits 0 y

/-- The leading flag of `bit_dec`, tested on the whole input, and whether it is missing (R84). -/
def stripLeading (y : Bits) : Bits × Bool :=
  if 8 ≤ y.length ∧ slice y 0 8 = BITFLAG then (slice y 8 y.length, false) else (y, true)

/-- The trailing flag of `bit_dec`, tested on what remains, and whether it is missing (R84). -/
def stripTrailing (y : Bits) : Bits × Bool :=
  if 8 ≤ y.length ∧ slice y (y.length - 8) y.length = BITFLAG then (slice y 0 (y.length - 8), false) else (y, true)

/-- `bit_dec` (R84): either missing flag raises the one flag MISSING_DELIM. -/
def bitDec : Engine := fun f =>
  let lead := stripLeading f
  let trail := stripTrailing lead.1
  .ok { out := destuffBits 0 trail.1, diag := { missingDelim := lead.2 || trail.2 } }

/-! ## The commands -/

/-- CC_ENC (R79). -/
def execCcEnc (s : State) : StepResult := .next (s.completeUnit ccEnc)

/-- CC_DEC (R80). -/
def execCcDec (s : State) : StepResult := .next (s.completeUnit ccDec)

/-- BYTE_ENC (R81). -/
def execByteEnc (s : State) : StepResult := .next (s.completeUnit byteEnc)

/-- BYTE_DEC (R82). -/
def execByteDec (s : State) : StepResult := .next (s.completeUnit byteDec)

/-- BIT_ENC (R83). -/
def execBitEnc (s : State) : StepResult := .next (s.completeUnit bitEnc)

/-- BIT_DEC (R84). -/
def execBitDec (s : State) : StepResult := .next (s.completeUnit bitDec)

end Sys2Proof.Machine
end

