-- ==== Sys2Proof/Machine/Pipeline.lean ====
section
/-! DEFINITION. The pipeline sequencer (44_pipeline.md R98 to R104): the strategy mux, the three stages, and PIPE_TX and PIPE_RX. -/

namespace Sys2Proof.Machine

/-! ## The strategy mux (R98) -/

/-- `ident(y)` (R98). -/
def ident : Engine := fun y => .ok { out := y }

/-- `ident_ok(y)` (R98). -/
def identOk : Engine := fun y => .ok { out := y, valid := true }

/-- `crc_rx(y, Q) = crc_strip(y, Q) with valid = crc_ver(y).valid` (R98). -/
def crcRx (Q : Nat) : Engine := fun y => do
  let checked ← crcVer y
  let stripped ← crcStrip Q y
  return { stripped with valid := checked.valid }

/-- The transmit engines of the framing stage, FE (R98). -/
def Framing.encoder : Framing → Engine
  | .charCount => ccEnc
  | .bitStuff => bitEnc
  | .byteStuff => byteEnc

/-- The receive engines of the framing stage, FD (R98). -/
def Framing.decoder : Framing → Engine
  | .charCount => ccDec
  | .bitStuff => bitDec
  | .byteStuff => byteDec

/-- The transmit engines of the correction stage, CE (R98). -/
def Correction.encoder : Correction → Engine
  | .none => ident
  | .hamming => hamEnc

/-- The receive engines of the correction stage, CD (R98). -/
def Correction.decoder : Correction → Engine
  | .none => ident
  | .hamming => hamDec

/-- The transmit engines of the detection stage, DE (R98). -/
def Detection.encoder : Detection → Engine
  | .none => ident
  | .parity => parEnc
  | .checksum => csEnc
  | .crc32 => crcEnc

/-- The receive engines of the detection stage, DD, with the pads P and Q (R98). -/
def Detection.decoder (P Q : Nat) : Detection → Engine
  | .none => identOk
  | .parity => parVer P
  | .checksum => csVer
  | .crc32 => crcRx Q

/-! ## The sequencer (R99, R101, R102) -/

/-- What a pipeline command leaves: its result record, and the outputs of the stages that completed, in stage order. -/
structure PipeOutcome where
  res : Res
  stages : List Bits
  deriving DecidableEq, Repr

/-- `stage(k, engine, y)` (R101): the engine's own error comes before the stage's output CAPACITY (R110). -/
def runStage (cap : Nat) (engine : Engine) (y : Bits) : Except HardError Res :=
  match engine y with
  | .error e => .error e
  | .ok r => if cap < r.out.length then .error .capacity else .ok r

/-- One stage: the CONFIG field it is blamed on (R99) and its engine. -/
abbrev StageUnit := Stage × Engine

/-- The three stages in order, stage k's output being stage k+1's input (R99). A hard error aborts the rest, and DIAG then
holds the flags of the completed stages (R103, R108). -/
def runStages (cap : Nat) (u1 u2 u3 : StageUnit) (publish : Res → Res → Res → Res) (x : Bits) : PipeOutcome :=
  match runStage cap u1.2 x with
  | .error e => { res := Res.abort e (some u1.1) {}, stages := [] }
  | .ok t1 =>
    match runStage cap u2.2 t1.out with
    | .error e => { res := Res.abort e (some u2.1) t1.diag, stages := [t1.out] }
    | .ok t2 =>
      match runStage cap u3.2 t2.out with
      | .error e => { res := Res.abort e (some u3.1) (t1.diag.or t2.diag), stages := [t1.out, t2.out] }
      | .ok t3 => { res := publish t1 t2 t3, stages := [t1.out, t2.out, t3.out] }

/-- The result record of PIPE_TX (R101). -/
def publishTx (t1 t2 t3 : Res) : Res :=
  { out := t3.out, diag := (t1.diag.or t2.diag).or t3.diag, crcValue := t3.crcValue, csumValue := t3.csumValue }

/-- The result record of PIPE_RX (R102). -/
def publishRx (t1 t2 t3 : Res) : Res :=
  { out := t3.out, valid := t1.valid, corr := t2.corr, syndrome := t2.syndrome, csumValue := t1.csumValue,
    diag := (t1.diag.or t2.diag).or t3.diag }

/-- `pipe_tx(x, cfg)` (R101). -/
def pipeTx (cap : Nat) (cfg : ConfigReg) (x : Bits) : PipeOutcome :=
  match cfg.strategies with
  | .error st => { res := Res.abort .configError (some st) {}, stages := [] }
  | .ok (f, k, d) =>
    runStages cap (.framing, f.encoder) (.correction, k.encoder) (.detection, d.encoder) publishTx x

/-- `pipe_rx(y, cfg, P, Q)` (R102). -/
def pipeRx (cap : Nat) (cfg : ConfigReg) (P Q : Nat) (y : Bits) : PipeOutcome :=
  match cfg.strategies with
  | .error st => { res := Res.abort .configError (some st) {}, stages := [] }
  | .ok (f, k, d) =>
    runStages cap (.detection, d.decoder P Q) (.correction, k.decoder) (.framing, f.decoder) publishRx y

/-- The completion of a pipeline command: input CAPACITY before its rule (R75, R110), the result, and the traces (R104; after an
input CAPACITY too: log 15). -/
def State.completePipe (s : State) (rule : Bits → PipeOutcome) : State :=
  if s.params.maxInBits < s.inLen.toNat then (s.complete (Res.abort .capacity none {})).writeTraces []
  else
    (s.complete (guardOutput s.params (rule s.inString).res)).writeTraces (rule s.inString).stages

/-! ## The commands -/

/-- PIPE_TX (R101). -/
def execPipeTx (s : State) : StepResult := .next (s.completePipe (pipeTx s.params.maxOutBits s.config))

/-- PIPE_RX (R102). -/
def execPipeRx (s : State) : StepResult :=
  .next (s.completePipe (pipeRx s.params.maxOutBits s.config s.parityPad s.crcPad))

end Sys2Proof.Machine
end

