-- ==== Sys2Proof/Machine/Dispatch.lean ====
section
/-! DEFINITION. The match over the opcode (R75): one arm for each command, "exhaustive" and with "no default branch". -/

namespace Sys2Proof.Machine

def exec (i : Instr) (s : State) : Host.Outcome State Fault Refusal :=
  match i with
  | .xfer => Sys2Proof.Machine.execXfer s
  | .ccEnc => Sys2Proof.Machine.execCcEnc s
  | .ccDec => Sys2Proof.Machine.execCcDec s
  | .byteEnc => Sys2Proof.Machine.execByteEnc s
  | .byteDec => Sys2Proof.Machine.execByteDec s
  | .bitEnc => Sys2Proof.Machine.execBitEnc s
  | .bitDec => Sys2Proof.Machine.execBitDec s
  | .parEnc => Sys2Proof.Machine.execParEnc s
  | .parVer => Sys2Proof.Machine.execParVer s
  | .csEnc => Sys2Proof.Machine.execCsEnc s
  | .csVer => Sys2Proof.Machine.execCsVer s
  | .crcEnc => Sys2Proof.Machine.execCrcEnc s
  | .crcVer => Sys2Proof.Machine.execCrcVer s
  | .crcStrip => Sys2Proof.Machine.execCrcStrip s
  | .hamEnc => Sys2Proof.Machine.execHamEnc s
  | .hamDec => Sys2Proof.Machine.execHamDec s
  | .pipeTx => Sys2Proof.Machine.execPipeTx s
  | .pipeRx => Sys2Proof.Machine.execPipeRx s

end Sys2Proof.Machine
end

