-- ==== Sys2Proof/Machine/Step.lean ====
section
/-! DEFINITION. One step of the machine: a completion of the engine or a step of the outside world (R24, R65). -/

namespace Sys2Proof.Machine

/-- The engine's one step, the completion of the command it holds (R24, R42, R75): the word in CMD is decoded and runs, or
completes with ILLEGAL_CMD. -/
def engineStep (s : State) : StepResult :=
  match decode s.cmd with
  | .ok i => exec i s
  | .error _ => .next s.completeIllegal

/-- One step (R65). While BUSY the engine completes once its latency has passed, and until then each step is a host step
(R42, R137; log 2); while IDLE every step is a host step. -/
def step (s : State) : Host.Outcome State Fault Refusal :=
  match s.phase, s.waiting with
  | .busy, 0 => engineStep s
  | .busy, n + 1 => hostStep (s.withWaiting n)
  | .idle, _ => hostStep s

/-- `s` with the command word held and its completion due at the very next step: what the acceptance of that word leaves
(R41), its latency passed. The command word is the block's only fetch (R68; log 14). -/
def State.withFetchWord (s : State) (nbits w : Nat) : State :=
  { s with cmd := tableWord nbits w, phase := .busy, done := false, waiting := 0 }

end Sys2Proof.Machine
end

