-- ==== Sys2Proof/Safety.lean ====
section
/-! DEFINITION. The terms claims are made in: what a state's buffers and result registers show, what a step leaves unchanged,
the invariant of every step, and the spec's own loops where the model recurses over the list instead. -/

namespace Sys2Proof.Machine

/-! ## What a state shows -/

/-- A buffer holds the string `x` in its first bits, and its length register says so. -/
abbrev shows (m : BitMem) (len : BitVec 20) (x : Bits) : Prop :=
  len.toNat = x.length ∧ ∀ i, i < x.length → m.get i = x[i]?

/-- `IN[0..IN_LEN)` is the string `x`, every bit of it written. -/
abbrev State.holdsIn (s : State) (x : Bits) : Prop := shows s.inBuf s.inLen x

/-- `OUT[0..OUT_LEN)` is the string `x`. -/
abbrev State.showsOut (s : State) (x : Bits) : Prop := shows s.out s.outLen x

/-- The result registers hold the record `r`, and the command is complete (R42, R43); OUT apart. -/
abbrev State.reports (s : State) (r : Res) : Prop :=
  s.phase = .idle ∧ s.done = true ∧ s.valid = r.valid ∧ s.corr = r.corr ∧ s.err = r.err ∧ s.errStage = r.errStage
    ∧ s.diag = r.diag ∧ s.syndrome.toNat = r.syndrome ∧ s.crcValue = r.crcValue ∧ s.csumValue = r.csumValue

/-- The result registers and OUT hold the record `r` (R42, R43). -/
abbrev State.publishes (s : State) (r : Res) : Prop := s.reports r ∧ s.showsOut r.out

/-- One trace after a pipeline command: the recorded string, or length 0 (R104). -/
abbrev showsTrace (m : BitMem) (len : BitVec 20) : Option Bits → Prop
  | some x => shows m len x
  | none => len = 0

/-- The three traces after a pipeline command (R104): nothing is recorded unless TRACE_EN was set. -/
abbrev State.showsTraces (t : State) (enabled : Bool) (o0 o1 o2 : Option Bits) : Prop :=
  showsTrace t.trace0 t.trace0Len (if enabled then o0 else none)
    ∧ showsTrace t.trace1 t.trace1Len (if enabled then o1 else none)
    ∧ showsTrace t.trace2 t.trace2Len (if enabled then o2 else none)

/-- A record whose string fits OUT, or the CAPACITY abort in its place (R75, R109). -/
abbrev withinCapacity (p : Params) (r : Res) : Res :=
  if r.out.length ≤ p.maxOutBits then r else { err := some .capacity }

/-- The same with `d` in DIAG after the CAPACITY abort, for engines that raise flags. -/
abbrev withinCapacityWith (d : Diag) (p : Params) (r : Res) : Res :=
  if r.out.length ≤ p.maxOutBits then r else { err := some .capacity, diag := d }

/-- A pipeline stage completes with the record `r` (R101). -/
abbrev stageOk (cap : Nat) (engine : Engine) (y : Bits) (r : Res) : Prop :=
  engine y = .ok r ∧ r.out.length ≤ cap

/-- A pipeline stage raises `e`: the engine's own error, or CAPACITY for its output (R101, R110). -/
abbrev stageRaises (cap : Nat) (engine : Engine) (y : Bits) (e : HardError) : Prop :=
  engine y = .error e ∨ ∃ r, engine y = .ok r ∧ cap < r.out.length ∧ e = .capacity

/-! ## What a step leaves unchanged -/

/-- CMD, CONFIG, PADS, IN and IN_LEN are the same (R44). -/
abbrev State.keepsOperands (s t : State) : Prop :=
  t.cmd = s.cmd ∧ t.config = s.config ∧ t.pads = s.pads ∧ t.inLen = s.inLen ∧ t.inBuf = s.inBuf

/-- The traces and their lengths are the same. -/
abbrev State.keepsTraces (s t : State) : Prop :=
  t.trace0 = s.trace0 ∧ t.trace1 = s.trace1 ∧ t.trace2 = s.trace2
    ∧ t.trace0Len = s.trace0Len ∧ t.trace1Len = s.trace1Len ∧ t.trace2Len = s.trace2Len

/-- OVERRUN, the parameters, and what is outside the block are the same. -/
abbrev State.keepsRest (s t : State) : Prop :=
  t.overrun = s.overrun ∧ t.params = s.params ∧ t.latencies = s.latencies ∧ t.inputs = s.inputs ∧ t.resp = s.resp

/-- Every bit of the buffer outside its first `len` bits is the same. -/
abbrev keepsBeyond (m m' : BitMem) (len : BitVec 20) : Prop := ∀ i, len.toNat ≤ i → m'.get i = m.get i

/-- The result registers of `s` and OUT with its length are the same (R41, R127). -/
abbrev State.keepsResults (s t : State) : Prop :=
  t.valid = s.valid ∧ t.corr = s.corr ∧ t.err = s.err ∧ t.errStage = s.errStage ∧ t.diag = s.diag
    ∧ t.syndrome = s.syndrome ∧ t.crcValue = s.crcValue ∧ t.csumValue = s.csumValue
    ∧ t.out = s.out ∧ t.outLen = s.outLen

/-! ## The invariant -/

/-- A buffer is in canonical form, holds nothing past its capacity, and every bit below its length register is written. -/
structure BufferInv (m : BitMem) (cap : Nat) (len : BitVec 20) : Prop where
  canonical : m.wf
  withinCap : ∀ c ∈ m, c.1 < cap
  lenWithinCap : len.toNat ≤ cap
  written : ∀ i, i < len.toNat → (m.get i).isSome = true

/-- The invariant of the machine. IN_LEN is free (R32 lets it exceed MAX_IN_BITS, R129 lets it cover unwritten bits). -/
structure State.Inv (s : State) : Prop where
  /-- R8's constraints. -/
  params : s.params.wf
  /-- IN keeps its canonical form and capacity (R39). -/
  inCanonical : s.inBuf.wf
  inWithinCap : ∀ c ∈ s.inBuf, c.1 < s.params.maxInBits
  /-- OUT and the traces (R33, R37, R39). -/
  out : BufferInv s.out s.params.maxOutBits s.outLen
  trace0 : BufferInv s.trace0 s.params.maxOutBits s.trace0Len
  trace1 : BufferInv s.trace1 s.params.maxOutBits s.trace1Len
  trace2 : BufferInv s.trace2 s.params.maxOutBits s.trace2Len
  /-- BUSY and DONE exclude each other (R28, R41, R42). -/
  busyNotDone : s.phase = .busy → s.done = false
  /-- Nothing is waited for while IDLE. -/
  idleNotWaiting : s.phase = .idle → s.waiting = 0
  /-- After a hard error the other result registers are 0 (R108). -/
  errorClears : s.err ≠ none → s.valid = false ∧ s.corr = .clean ∧ s.syndrome = 0 ∧ s.crcValue = 0 ∧ s.csumValue = 0
  /-- ERR_STAGE other than 0 with ERR = NONE is never produced (U13). -/
  stageNeedsError : s.err = none → s.errStage = none

/-- CORR, SYNDROME and DIAG agree (R34, R96, R106): CORR is CLEAN exactly when SYNDROME is 0, and an UNCORRECTABLE result
raises its flag. -/
structure State.CorrAgrees (s : State) : Prop where
  cleanIff : s.corr = .clean ↔ s.syndrome = 0
  flagged : s.corr = .uncorrectable → s.diag.uncorrectable = true

end Sys2Proof.Machine

/-! ## The spec's own loops -/

namespace Sys2Proof.Pseudocode

open Sys2Proof.Machine (FLAG ESC Correction)

/-- One turn of `bit_enc`'s loop over the state `(s, c)` (R83). -/
def bitEncTurn (st : Bits × Nat) (b : Bool) : Bits × Nat :=
  if b then
    if st.2 + 1 = 5 then (st.1 ++ [b] ++ [false], 0) else (st.1 ++ [b], st.2 + 1)
  else (st.1 ++ [b], 0)

/-- One turn of `bit_dec`'s loop over the state `(out, c)` (R84). -/
def bitDecTurn (st : Bits × Nat) (b : Bool) : Bits × Nat :=
  if b then (st.1 ++ [true], st.2 + 1)
  else if st.2 = 5 then (st.1, 0)
  else (st.1 ++ [false], 0)

/-- `byte_dec`'s loop `while i < len(body)` (R82), at most `fuel` turns: the output and the flags INCOMPLETE_ESC and
BARE_FLAG. -/
def byteDecLoop (body : List Byte) : Nat → Nat → List Byte × Bool × Bool → List Byte × Bool × Bool
  | 0, _, acc => acc
  | fuel + 1, i, (out, incomplete, bare) =>
      if i < body.length then
        if body.getD i 0 = ESC then
          if i = body.length - 1 then byteDecLoop body fuel (i + 1) (out, true, bare)
          else byteDecLoop body fuel (i + 2) (out ++ [body.getD (i + 1) 0], incomplete, bare)
        else if body.getD i 0 = FLAG then byteDecLoop body fuel (i + 1) (out ++ [FLAG], incomplete, true)
        else byteDecLoop body fuel (i + 1) (out ++ [body.getD i 0], incomplete, bare)
      else (out, incomplete, bare)

/-- How many of the positions of `w` that `sel` selects hold a 1, the first entry being position 1 (R94). -/
def onesAt (sel : Nat → Bool) (w : Bits) : Nat :=
  (List.range w.length).countP fun k => sel (k + 1) && w.getD k false

/-- The bits of `w` at the positions that are no powers of two, in increasing order (R96). -/
def dataAt (w : Bits) : Bits :=
  (List.range w.length).filterMap fun k => if k + 1 = 2 ^ (k + 1).log2 then none else w[k]?

/-- How many right-pad bits of `cs_enc` reach the framing decoder: the e of R105, for a detection input of `n` bits on
transmit. -/
def padReachingFraming (k : Correction) (n : Nat) : Nat :=
  match k with
  | .none => (8 - n % 8) % 8
  | .hamming => (List.range ((8 - n % 8) % 8)).countP fun i => n + 1 + i ≠ 2 ^ (n + 1 + i).log2

/-- The carry-less product of two numbers read as polynomials over GF(2): the XOR of `b << i` over the set bits i of `a`. -/
def carrylessMul (a b : Nat) : Nat :=
  (List.range (a.log2 + 1)).foldl (fun acc i => if a.testBit i then acc ^^^ (b <<< i) else acc) 0

end Sys2Proof.Pseudocode
end

