-- ==== Sys2Proof/Certificates/Slice0/Obligations.lean ====
section
/-! DEFINITION. The statements for the provers. Each docstring names the rules of spec/ it formalises; x is always the input
string `IN[0..IN_LEN)` of the command, with unwritten bits as free values. -/

open Sys2Proof Sys2Proof.Machine Sys2Proof.Pseudocode

/-! ## Encoding (30_encoding.md) -/

/-- R70, R72: the word of each command decodes to it and to nothing else, for every 32-bit word. -/
def Obligations.DecodeAcceptsExactlyTheEncodings : Prop :=
  ∀ (w : Word) (i : Instr), decode w = .ok i ↔ w = encode i

/-- R72, R73: the eighteen words written out from the spec's table decode to their commands, and words just beside them do not. -/
def Obligations.SampleWordsDecodeToTheirCommands : Prop :=
  decode 0x00000001 = .ok .xfer
    ∧ decode 0x00000010 = .ok .ccEnc ∧ decode 0x00000011 = .ok .ccDec ∧ decode 0x00000012 = .ok .byteEnc
    ∧ decode 0x00000013 = .ok .byteDec ∧ decode 0x00000014 = .ok .bitEnc ∧ decode 0x00000015 = .ok .bitDec
    ∧ decode 0x00000020 = .ok .parEnc ∧ decode 0x00000021 = .ok .parVer ∧ decode 0x00000022 = .ok .csEnc
    ∧ decode 0x00000023 = .ok .csVer ∧ decode 0x00000024 = .ok .crcEnc ∧ decode 0x00000025 = .ok .crcVer
    ∧ decode 0x00000026 = .ok .crcStrip
    ∧ decode 0x00000030 = .ok .hamEnc ∧ decode 0x00000031 = .ok .hamDec
    ∧ decode 0x00000040 = .ok .pipeTx ∧ decode 0x00000041 = .ok .pipeRx
    ∧ decode 0x00000110 = .error .reservedNonZero ∧ decode 0x80000010 = .error .reservedNonZero
    ∧ decode 0x00000000 = .error .unassignedOpcode ∧ decode 0x00000016 = .error .unassignedOpcode
    ∧ decode 0x00000027 = .error .unassignedOpcode ∧ decode 0x00000032 = .error .unassignedOpcode
    ∧ decode 0x00000042 = .error .unassignedOpcode

/-- R73: an illegal word, held by the engine, completes with ILLEGAL_CMD and ERR_STAGE 0, and changes nothing but the result
registers and OUT_LEN, which becomes 0. That OUT_LEN becomes 0 for a word whose low byte is XFER's opcode is log 10. -/
def Obligations.IllegalWordsCompleteWithIllegalCmd : Prop :=
  ∀ s : State, s.phase = .busy → s.waiting = 0 →
    (s.cmd.extractLsb' 8 24 ≠ 0 ∨
      s.cmd.extractLsb' 0 8 ∉ ([0x01, 0x10, 0x11, 0x12, 0x13, 0x14, 0x15, 0x20, 0x21, 0x22, 0x23, 0x24, 0x25, 0x26, 0x30, 0x31,
        0x40, 0x41] : List Byte)) →
    ∃ t, step s = .next t ∧ t.reports { err := some .illegalCmd } ∧ t.outLen = 0 ∧ (∀ i, t.out.get i = s.out.get i)
      ∧ s.keepsOperands t ∧ s.keepsTraces t ∧ s.keepsRest t

/-! ## The step and the command lifecycle (10_state.md R41 to R45) -/

/-- R42, R75: when a completion is due and CMD decodes to a command, the step is that command's meaning. -/
def Obligations.StepRunsTheDecodedCommand : Prop :=
  ∀ (s : State) (i : Instr), s.phase = .busy → s.waiting = 0 → decode s.cmd = .ok i → step s = exec i s

/-- R24, R65, R111: while IDLE, and while BUSY until the latency has passed, a step is a step of the outside world; a fault of a host
step is reported to the host and the block, unchanged, goes on. The model's choices in it: one entry of `inputs` is served in each
step (log 1, DESIGN CHOICE), the latency is counted in host steps (log 2, DESIGN CHOICE), the failed access is recorded in `resp`
(log 6), and with no entry left the step changes nothing, a step the spec does not have (log 11, DESIGN CHOICE). -/
def Obligations.StepServesTheHostUntilCompletion : Prop :=
  ∀ s : State,
    (s.phase = .idle → step s = hostStep s) ∧
    (∀ n, s.phase = .busy → s.waiting = n + 1 → step s = hostStep { s with waiting := n }) ∧
    (s.inputs = [] → hostStep s = .next s) ∧
    (∀ i rest, s.inputs = i :: rest → hostStep s = serve { s with inputs := rest } i) ∧
    (∀ i t, hostAccess s i = .next t → serve s i = .next t) ∧
    (∀ i f, hostAccess s i = .fault f → serve s i = .next { s with resp := .failed f })

/-- R65, R111, R115: no state stops the block. Bus refusals are reported to the host (log 6) and illegal words complete (R73). -/
def Obligations.StepAlwaysAnswersNext : Prop := ∀ s : State, ∃ t, step s = .next t

/-- R42, R44, R127, R137: a command held while no reset is due completes after exactly its latency of host steps, whatever the
host does meanwhile; its operands are those that stood when it was held, and until the completion every result register, OUT and
OUT_LEN keep the previous command's values. -/
def Obligations.HeldCommandCompletesOnUnchangedOperands : Prop :=
  ∀ (s : State) (i : Instr), s.phase = .busy → s.done = false → decode s.cmd = .ok i → .reset ∉ s.inputs.take s.waiting →
    ∃ u t, Host.Core.run Sys2Proof.core s.waiting s = .next u ∧ u.phase = .busy ∧ u.done = false ∧ u.waiting = 0
      ∧ s.keepsOperands u ∧ s.keepsResults u ∧ s.keepsTraces u ∧ u.inputs = s.inputs.drop s.waiting
      ∧ step u = exec i u ∧ exec i u = .next t ∧ t.phase = .idle ∧ t.done = true

/-- R41: a host write to CMD while IDLE is accepted in one step: CMD, the phase and DONE change, and no other register or buffer. -/
def Obligations.CmdWriteWhileIdleIsAccepted : Prop :=
  ∀ (s : State) (v : Word), s.params.wf → s.phase = .idle →
    ∃ t, hostAccess s (.write (s.params.blockBase + 0x000) 4 v) = .next t ∧ t.cmd = v ∧ t.phase = .busy ∧ t.done = false
      ∧ s.keepsResults t ∧ s.keepsTraces t ∧ t.overrun = s.overrun ∧ t.config = s.config ∧ t.pads = s.pads
      ∧ t.inLen = s.inLen ∧ t.inBuf = s.inBuf ∧ t.params = s.params

/-- R45: while BUSY a write to CMD, CONFIG, PADS, IN_LEN or IN_DATA is ignored and sets OVERRUN; a write to STATUS takes effect; a
write to a read-only or reserved offset is ignored and sets nothing, in either phase; a read is answered in either phase. The model's
choices in it: an IN_DATA word past the capacity sets OVERRUN too (log 8, DEDUCED), a read-only or reserved offset does not while BUSY
(log 7, DEDUCED: R45 against R61), and a read's answer is some word in `resp` (log 6). (What `resp` holds after a write, and `draws`,
are the model's own; nothing is said of them.) -/
def Obligations.WritesWhileBusyAreIgnoredAndFlagged : Prop :=
  ∀ (s : State) (v : Word) (off : Nat), s.params.wf →
    (s.phase = .busy → (off ∈ [0x000, 0x00C, 0x010, 0x014] ∨ (0x10000 ≤ off ∧ off < 0x20000 ∧ off % 4 = 0)) →
      ∃ t, hostAccess s (.write (s.params.blockBase + off) 4 v) = .next t ∧ t = { s with overrun := true, resp := t.resp }) ∧
    (off = 0x004 →
      ∃ t, hostAccess s (.write (s.params.blockBase + off) 4 v) = .next t ∧
        t = { s with overrun := s.overrun && !v.getLsbD 15, resp := t.resp }) ∧
    (off < 0x60000 → off % 4 = 0 → (off = 0x008 ∨ (0x018 ≤ off ∧ off < 0x10000) ∨ 0x20000 ≤ off) →
      ∃ t, hostAccess s (.write (s.params.blockBase + off) 4 v) = .next t ∧ t = { s with resp := t.resp }) ∧
    (off < 0x60000 → off % 4 = 0 →
      ∃ t w, hostAccess s (.read (s.params.blockBase + off) 4) = .next t ∧ t.resp = .data w
        ∧ t = { s with resp := t.resp, draws := t.draws })

/-- R112: a host write ignored while BUSY sets OVERRUN; it stays set across every step until the host writes 1 to STATUS bit 15 or
the block is reset, each of which does clear it; in particular acceptance and completion do not. That an IN_DATA word past the
capacity sets it too is the model's choice (log 8, DEDUCED). -/
def Obligations.OverrunIsClearedOnlyByStatusWriteOrReset : Prop :=
  ∀ s : State, s.params.wf →
    (∀ (off : Nat) (v : Word), s.phase = .busy →
      (off ∈ [0x000, 0x00C, 0x010, 0x014] ∨ (0x10000 ≤ off ∧ off < 0x20000 ∧ off % 4 = 0)) →
      ∃ t, hostAccess s (.write (s.params.blockBase + off) 4 v) = .next t ∧ t.overrun = true) ∧
    (∀ t, step s = .next t → s.overrun = true → t.overrun = false →
      s.inputs.head? = some .reset ∨
        ∃ v, s.inputs.head? = some (.write (s.params.blockBase + 0x004) 4 v) ∧ v.getLsbD 15 = true) ∧
    (∀ v : Word, v.getLsbD 15 = true →
      ∃ t, hostAccess s (.write (s.params.blockBase + 0x004) 4 v) = .next t ∧ t.overrun = false) ∧
    (∃ t, hostAccess s .reset = .next t ∧ t.overrun = false)

/-! ## Registers (10_state.md R28 to R38) -/

/-- R27 to R37, R107: what a read of each register returns. STATUS gives BUSY, DONE, VALID, CORR, ERR, ERR_STAGE and OVERRUN at their
places, the hard errors by their codes, and 0 at the reserved bits; DIAG its seven flags, CONFIG its strategies and TRACE_EN, and PADS
its two widths, each at its place; CMD, IN_LEN, OUT_LEN, SYNDROME, CRC_VALUE, CSUM_VALUE and TRACEk_LEN that register. -/
def Obligations.StatusWordHoldsItsFields : Prop :=
  ∀ s : State,
    ((s.readTarget .status).getLsbD 0 = decide (s.phase = .busy) ∧ (s.readTarget .status).getLsbD 1 = s.done
      ∧ (s.readTarget .status).getLsbD 2 = s.valid
      ∧ (s.readTarget .status).extractLsb' 3 2 = (match s.corr with | .clean => 0 | .corrected => 1 | .uncorrectable => 2)
      ∧ (s.readTarget .status).extractLsb' 5 3 = 0
      ∧ (s.readTarget .status).extractLsb' 8 4 = (match s.err with
          | none => 0 | some .frameTooLarge => 1 | some .frameTooShort => 2 | some .misalignedFrame => 3
          | some .configError => 4 | some .illegalCmd => 5 | some .capacity => 6)
      ∧ (s.readTarget .status).extractLsb' 12 2 = (match s.errStage with
          | none => 0 | some .framing => 1 | some .correction => 2 | some .detection => 3)
      ∧ (s.readTarget .status).getLsbD 14 = false ∧ (s.readTarget .status).getLsbD 15 = s.overrun
      ∧ (s.readTarget .status).extractLsb' 16 16 = 0) ∧
    ((s.readTarget .diag).getLsbD 0 = s.diag.lenMismatch ∧ (s.readTarget .diag).getLsbD 1 = s.diag.missingDelim
      ∧ (s.readTarget .diag).getLsbD 2 = s.diag.incompleteEsc ∧ (s.readTarget .diag).getLsbD 3 = s.diag.bareFlag
      ∧ (s.readTarget .diag).getLsbD 4 = s.diag.uncorrectable ∧ (s.readTarget .diag).getLsbD 5 = s.diag.short
      ∧ (s.readTarget .diag).getLsbD 6 = s.diag.misalignedTail ∧ (s.readTarget .diag).extractLsb' 7 25 = 0) ∧
    ((s.readTarget .config).extractLsb' 0 2 = s.config.framing ∧ (s.readTarget .config).extractLsb' 2 2 = s.config.correction
      ∧ (s.readTarget .config).extractLsb' 4 3 = s.config.detection ∧ (s.readTarget .config).getLsbD 8 = s.config.traceEn
      ∧ (s.readTarget .pads).extractLsb' 0 8 = s.pads.parityPad ∧ (s.readTarget .pads).extractLsb' 16 16 = s.pads.crcPad) ∧
    (s.readTarget .cmd = s.cmd ∧ (s.readTarget .inLen).toNat = s.inLen.toNat ∧ (s.readTarget .outLen).toNat = s.outLen.toNat
      ∧ (s.readTarget .syndrome).toNat = s.syndrome.toNat ∧ s.readTarget .crcValue = s.crcValue
      ∧ (s.readTarget .csumValue).toNat = s.csumValue.toNat ∧ (s.readTarget .trace0Len).toNat = s.trace0Len.toNat
      ∧ (s.readTarget .trace1Len).toNat = s.trace1Len.toNat ∧ (s.readTarget .trace2Len).toNat = s.trace2Len.toNat)

/-- R38: every offset `0x034` to `0xFFFC` reads 0 and ignores writes, and so does every reserved field of the registers: it reads
0 in every state, and a write stores the same whatever it holds there. (CMD's RSVD field is stored, R27.) -/
def Obligations.ReservedOffsetsAndFieldsReadZeroAndIgnoreWrites : Prop :=
  ∀ (s : State) (v : Word),
    (∀ off, 0x034 ≤ off → off < 0x10000 → off % 4 = 0 →
      s.readTarget (targetOf off) = 0 ∧ s.writeTarget v (targetOf off) = s) ∧
    s.readTarget .status &&& 0xFFFF40E0 = 0 ∧ s.readTarget .diag &&& 0xFFFFFF80 = 0
      ∧ s.readTarget .config &&& 0xFFFFFE80 = 0 ∧ s.readTarget .pads &&& 0x0000FF00 = 0
      ∧ (∀ tgt ∈ [Target.inLen, .outLen, .syndrome, .trace0Len, .trace1Len, .trace2Len], s.readTarget tgt &&& 0xFFF00000 = 0)
      ∧ s.readTarget .csumValue &&& 0xFFFFFF00 = 0
      ∧ s.writeTarget v .config = s.writeTarget (v &&& 0x0000017F) .config
      ∧ s.writeTarget v .pads = s.writeTarget (v &&& 0xFFFF00FF) .pads
      ∧ s.writeTarget v .inLen = s.writeTarget (v &&& 0x000FFFFF) .inLen
      ∧ s.writeTarget v .status = s.writeTarget (v &&& 0x00008000) .status

/-- R30, R31, R32, R61: what a write to CONFIG, PADS or IN_LEN stores while IDLE reads back as written, reserved bits as 0; reserved
strategy values are stored too. Such a write changes that register and nothing else (R48, R61). -/
def Obligations.ControlRegistersReadBackAsWritten : Prop :=
  ∀ (s : State) (v : Word), s.phase = .idle →
    ((s.writeTarget v .config).readTarget .config = v &&& 0x0000017F
      ∧ s.writeTarget v .config = { s with config := (s.writeTarget v .config).config }) ∧
    ((s.writeTarget v .pads).readTarget .pads = v &&& 0xFFFF00FF
      ∧ s.writeTarget v .pads = { s with pads := (s.writeTarget v .pads).pads }) ∧
    ((s.writeTarget v .inLen).readTarget .inLen = v &&& 0x000FFFFF
      ∧ s.writeTarget v .inLen = { s with inLen := (s.writeTarget v .inLen).inLen })

/-- R124, R123, R125: the reset input, in any state and either phase, puts every field at R124's value in one step: the phase IDLE,
every register 0 but PADS, which reads 0x00400007 (so the pipeline is character-count framing alone), reserved offsets reading 0, and
no bit of any buffer written. -/
def Obligations.ResetPutsEveryFieldAtItsValue : Prop :=
  ∀ s : State, ∃ t, hostAccess s .reset = .next t ∧ t.phase = .idle ∧ t.done = false ∧ t.valid = false ∧ t.corr = .clean
    ∧ t.err = none ∧ t.errStage = none ∧ t.overrun = false
    ∧ (∀ tgt ∈ [Target.cmd, .status, .diag, .config, .inLen, .outLen, .syndrome, .crcValue, .csumValue, .trace0Len, .trace1Len,
        .trace2Len, .reserved], t.readTarget tgt = 0)
    ∧ t.readTarget .pads = 0x00400007 ∧ t.parityPad = 7 ∧ t.crcPad = 64
    ∧ framingOf t.config.framing = some .charCount ∧ correctionOf t.config.correction = some .none
    ∧ detectionOf t.config.detection = some .none ∧ t.config.traceEn = false
    ∧ (∀ i, t.inBuf.get i = none ∧ t.out.get i = none ∧ t.trace0.get i = none ∧ t.trace1.get i = none ∧ t.trace2.get i = none)

/-! ## The bus and the buffer windows (20_memory.md R49 to R55) -/

/-- R26, R49: an aligned 32-bit access at an offset of the aperture reaches the register or window word the map gives the offset: a
read returns its word (in `resp`, log 6), a write has its effect. -/
def Obligations.HostAccessesReachTheRegisterMap : Prop :=
  ∀ (s : State) (off : Nat) (v : Word), s.params.wf → off < 0x60000 → off % 4 = 0 →
    (∃ t, hostAccess s (.read (s.params.blockBase + off) 4) = .next t ∧ t.resp = .data (s.readTarget (targetOf off))) ∧
    (∃ t, hostAccess s (.write (s.params.blockBase + off) 4 v) = .next t
      ∧ t = { s.writeTarget v (targetOf off) with resp := t.resp }) ∧
    (off < 0x10000 → targetOf off = (if off ≤ 0x030 then
        [Target.cmd, .status, .diag, .config, .pads, .inLen, .outLen, .syndrome, .crcValue, .csumValue, .trace0Len, .trace1Len,
          .trace2Len].getD (off / 4) .reserved
      else .reserved)) ∧
    (∀ k, off = 0x10000 + 4 * k → off < 0x20000 → targetOf off = .inData k) ∧
    (∀ k, off = 0x20000 + 4 * k → off < 0x30000 → targetOf off = .outData k) ∧
    (∀ k, off = 0x30000 + 4 * k → off < 0x40000 → targetOf off = .trace0Data k) ∧
    (∀ k, off = 0x40000 + 4 * k → off < 0x50000 → targetOf off = .trace1Data k) ∧
    (∀ k, off = 0x50000 + 4 * k → off < 0x60000 → targetOf off = .trace2Data k)

/-- R50: an access in the aperture that is not 32 bits wide or not aligned is refused: a fault of the host step, with no effect and
no value. R49: an access outside the aperture does not reach the block. The model's choices in it: the aperture is tested before width
and alignment, and an access is judged by the address of its first byte (log 17, DEDUCED); an access outside the aperture is a fault
with a name of its own (log 6). -/
def Obligations.RefusedAccessesAreFaultsOfTheHostStep : Prop :=
  ∀ (s : State) (addr width : Nat) (v : Word),
    (s.params.blockBase ≤ addr → addr < s.params.blockBase + 0x60000 → (width ≠ 4 ∨ addr % 4 ≠ 0) →
      hostAccess s (.read addr width) = .fault .busRefused ∧ hostAccess s (.write addr width v) = .fault .busRefused) ∧
    ((addr < s.params.blockBase ∨ s.params.blockBase + 0x60000 ≤ addr) →
      hostAccess s (.read addr width) = .fault .outsideAperture ∧ hostAccess s (.write addr width v) = .fault .outsideAperture)

/-- R54, R52, R61: a write to word k of IN_DATA while IDLE stores `IN[32k + j] <- v[31 - j]`, beyond IN_LEN too, and no other bit and no
register; the word
reads back as v and every other word as before (at the same draw); a read packs the stored bits, a bit never written being the draw's
free value; a word without storage reads 0 and ignores writes; a write while BUSY is ignored. The form of the free value, one
`Config.anyBit` for each draw number, is the model's choice (log 4, DESIGN CHOICE); R54 says "any value". -/
def Obligations.InDataWordReadsBackAsWritten : Prop :=
  ∀ (s : State) (k : Nat) (v : Word),
    (s.phase = .idle → k < s.params.maxInBits / 32 →
      (∀ j, j < 32 → (s.writeTarget v (.inData k)).inBuf.get (32 * k + j) = some (v.getLsbD (31 - j)))
        ∧ (∀ i, i < 32 * k ∨ 32 * k + 32 ≤ i → (s.writeTarget v (.inData k)).inBuf.get i = s.inBuf.get i)
        ∧ s.writeTarget v (.inData k) = { s with inBuf := (s.writeTarget v (.inData k)).inBuf }
        ∧ (s.writeTarget v (.inData k)).readTarget (.inData k) = v
        ∧ ∀ k', k' ≠ k → (s.writeTarget v (.inData k)).readTarget (.inData k') = s.readTarget (.inData k')) ∧
    (k < s.params.maxInBits / 32 → ∀ j, j < 32 →
      (∀ b, s.inBuf.get (32 * k + j) = some b → (s.readTarget (.inData k)).getLsbD (31 - j) = b) ∧
      (s.inBuf.get (32 * k + j) = none →
        (s.readTarget (.inData k)).getLsbD (31 - j) = Config.anyBit s.draws (32 * k + j))) ∧
    (s.params.maxInBits / 32 ≤ k →
      s.readTarget (.inData k) = 0 ∧ (s.phase = .idle → s.writeTarget v (.inData k) = s)) ∧
    (s.phase = .busy → (s.writeTarget v (.inData k)).inBuf = s.inBuf)

/-- R55, R52, R40: OUT_DATA and the TRACEk_DATA windows ignore writes; word k is packed most significant bit first; past the capacity
it reads 0; a bit at or beyond the length register, or any bit while BUSY, is the draw's free value, in a state whose buffer
holds its string. The model's choices in it: past the capacity it reads 0 while BUSY too (log 9, DEDUCED), and the form of the free
value (log 4, DESIGN CHOICE). -/
def Obligations.ResultWindowsShowTheirStrings : Prop :=
  ∀ (s : State) (k : Nat) (v : Word), s.Inv → ∀ w ∈ [(Target.outData k, s.out, s.outLen), (.trace0Data k, s.trace0, s.trace0Len),
      (.trace1Data k, s.trace1, s.trace1Len), (.trace2Data k, s.trace2, s.trace2Len)],
    s.writeTarget v w.1 = s ∧
    (s.params.maxOutBits / 32 ≤ k → s.readTarget w.1 = 0) ∧
    (k < s.params.maxOutBits / 32 → ∀ j, j < 32 →
      (s.phase = .idle → 32 * k + j < w.2.2.toNat → w.2.1.get (32 * k + j) = some ((s.readTarget w.1).getLsbD (31 - j))) ∧
      ((s.phase = .busy ∨ w.2.2.toNat ≤ 32 * k + j) →
        (s.readTarget w.1).getLsbD (31 - j) = Config.anyBit s.draws (32 * k + j)))

/-- R32, R44, R40: a command's input is `IN[0..IN_LEN)`: as long as IN_LEN says, each written bit as stored, each unwritten bit a free
value of the command's draw (the form of the free value is log 4, DESIGN CHOICE); so it is the string IN holds, where every bit is
written. XFER's operand is `OUT[0..OUT_LEN)` in the same way (R33, R78). -/
def Obligations.InputOperandIsTheStoredString : Prop :=
  ∀ s : State,
    (s.inString.length = s.inLen.toNat ∧
      (∀ x, s.holdsIn x → s.inString = x) ∧
      (∀ i b, i < s.inLen.toNat → s.inBuf.get i = some b → s.inString[i]? = some b) ∧
      (∀ i, i < s.inLen.toNat → s.inBuf.get i = none → s.inString[i]? = some (Config.anyBit s.draws i))) ∧
    (s.outString.length = s.outLen.toNat ∧
      (∀ x, s.showsOut x → s.outString = x) ∧
      (∀ i b, i < s.outLen.toNat → s.out.get i = some b → s.outString[i]? = some b) ∧
      (∀ i, i < s.outLen.toNat → s.out.get i = none → s.outString[i]? = some (Config.anyBit s.draws i)))

/-! ## The invariant and whole-machine rules -/

/-- The invariant holds at reset, for every value of the parameters that R8 allows, and in `State.reset`. -/
def Obligations.InvariantHoldsAtReset : Prop :=
  (∀ (p : Params) (l : List Nat) (ins : List Input) (d : Nat), p.wf →
    (State.resetWith p l ins d).Inv ∧ (State.resetWith p l ins d).CorrAgrees) ∧ State.reset.Inv ∧ State.reset.CorrAgrees

/-- R33, R37, R39, R41, R42, R108, U13: every step keeps the invariant: buffers in canonical form and inside their capacity, OUT and the
traces written up to their lengths, BUSY and DONE apart, the result registers 0 after a hard error, no ERR_STAGE without ERR. -/
def Obligations.EveryStepKeepsTheInvariant : Prop :=
  ∀ s t : State, s.Inv → step s = .next t → t.Inv

/-- R34, R96, R106: every step keeps CORR, SYNDROME and the UNCORRECTABLE flag in agreement; twenty bits hold every syndrome. -/
def Obligations.EveryStepKeepsCorrInAgreementWithSyndrome : Prop :=
  ∀ s t : State, s.Inv → s.CorrAgrees → step s = .next t → t.CorrAgrees

/-- R37, R104, R136: the traces and their lengths change only at the completion of PIPE_TX or PIPE_RX, or by reset. -/
def Obligations.TracesChangeOnlyByPipelineCommandsOrReset : Prop :=
  ∀ s t : State, step s = .next t →
    s.keepsTraces t ∨ s.inputs.head? = some .reset ∨
      (s.phase = .busy ∧ s.waiting = 0 ∧ (s.cmd = 0x00000040 ∨ s.cmd = 0x00000041))

/-- R27, R30, R31, R32, R54, R78, R8: in each step the parameters stay; CMD, CONFIG and PADS change only by a host write to their own offset
while IDLE, IN and IN_LEN by such a write or by XFER's completion, or all by reset. -/
def Obligations.OperandsChangeOnlyByIdleHostWritesXferOrReset : Prop :=
  ∀ s t : State, s.params.wf → step s = .next t →
    t.params = s.params ∧
    (s.inputs.head? = some .reset ∨
      ((t.cmd ≠ s.cmd → s.phase = .idle ∧ ∃ v, s.inputs.head? = some (.write (s.params.blockBase + 0x000) 4 v) ∧ t.cmd = v)
        ∧ (t.config ≠ s.config → s.phase = .idle ∧ ∃ v, s.inputs.head? = some (.write (s.params.blockBase + 0x00C) 4 v))
        ∧ (t.pads ≠ s.pads → s.phase = .idle ∧ ∃ v, s.inputs.head? = some (.write (s.params.blockBase + 0x010) 4 v))
        ∧ (t.inLen ≠ s.inLen → (s.phase = .idle ∧ ∃ v, s.inputs.head? = some (.write (s.params.blockBase + 0x014) 4 v))
            ∨ (s.phase = .busy ∧ s.waiting = 0 ∧ s.cmd = 0x00000001))
        ∧ (t.inBuf ≠ s.inBuf →
            (s.phase = .idle ∧ ∃ k v, s.inputs.head? = some (.write (s.params.blockBase + (0x10000 + 4 * k)) 4 v)
              ∧ k < s.params.maxInBits / 32)
            ∨ (s.phase = .busy ∧ s.waiting = 0 ∧ s.cmd = 0x00000001))))

/-! ## Results: XFER and the framing codec (40_bitstring.md, 41_framing.md) -/

/-- R78: XFER copies `OUT[0..OUT_LEN)` to IN and sets IN_LEN, leaves OUT and OUT_LEN alone, and keeps the IN bits past the copy; a string
longer than MAX_IN_BITS is CAPACITY, with IN and IN_LEN unchanged. -/
def Obligations.XferCopiesOutToIn : Prop :=
  ∀ s : State,
    (s.outLen.toNat ≤ s.params.maxInBits →
      ∃ t, exec .xfer s = .next t ∧ t.reports {} ∧ t.holdsIn s.outString ∧ keepsBeyond s.inBuf t.inBuf t.inLen
        ∧ t.out = s.out ∧ t.outLen = s.outLen) ∧
    (s.params.maxInBits < s.outLen.toNat →
      ∃ t, exec .xfer s = .next t ∧ t.reports { err := some .capacity } ∧ t.inBuf = s.inBuf ∧ t.inLen = s.inLen
        ∧ t.out = s.out ∧ t.outLen = s.outLen)

/-- R79: CC_ENC left-pads to a whole number n of octets and prepends n as one octet, most significant bit first; n > 255 is
FRAME_TOO_LARGE. -/
def Obligations.CcEncPrependsTheOctetCount : Prop :=
  ∀ s : State, s.params.wf → s.inLen.toNat ≤ s.params.maxInBits →
    let x := s.inString
    let n := (x.length + 7) / 8
    ∃ t, exec .ccEnc s = .next t ∧
      t.publishes (if n ≤ 255 then { out := (List.range 8).map (fun j => n.testBit (7 - j)) ++ (zeros (8 * n - x.length) ++ x) }
        else { err := some .frameTooLarge })

/-- R80: CC_DEC takes n from the first octet and returns the next 8n bits; fewer are returned with LEN_MISMATCH; under 8 bits is
FRAME_TOO_SHORT. What DIAG holds after
an output CAPACITY is said in UnitCommandFrame (log 18). -/
def Obligations.CcDecReturnsTheDeclaredOctets : Prop :=
  ∀ s : State, s.params.wf → s.inLen.toNat ≤ s.params.maxInBits →
    let f := s.inString
    let n := val (f.take 8)
    ∃ t, exec .ccDec s = .next t ∧
      t.publishes (if f.length < 8 then { err := some .frameTooShort }
        else withinCapacityWith t.diag s.params { out := (f.drop 8).take (8 * n), diag := { lenMismatch := decide (f.length < 8 + 8 * n) } })

/-- R81: BYTE_ENC left-pads to octets, emits `7D 7E` for `7E`, `7D 7D` for `7D` and any other octet unchanged, between two flags: 8 (2 + k + e)
bits for k octets of which e are special. -/
def Obligations.ByteEncEscapesFlagsAndEscapes : Prop :=
  ∀ s : State, s.params.wf → s.inLen.toNat ≤ s.params.maxInBits →
    let o := octets (padLeft8 s.inString)
    let body := o.foldl (fun acc v => if v = 0x7E then acc ++ [0x7D, 0x7E] else if v = 0x7D then acc ++ [0x7D, 0x7D] else acc ++ [v])
      [0x7E]
    let out := fromOctets (body ++ [0x7E])
    out.length = 8 * (2 + o.length + o.countP (fun v => v = 0x7E ∨ v = 0x7D)) ∧
    ∃ t, exec .byteEnc s = .next t ∧ t.publishes (withinCapacity s.params { out := out })

/-- R82: BYTE_DEC drops a partial octet (MISALIGNED_TAIL), strips the two flags where both ends have one (else SHORT or MISSING_DELIM), and
scans the body by the spec's loop. What DIAG holds after
an output CAPACITY is said in UnitCommandFrame (log 18). -/
def Obligations.ByteDecScansTheBody : Prop :=
  ∀ s : State, s.params.wf → s.inLen.toNat ≤ s.params.maxInBits →
    let f := s.inString
    let k := f.length / 8
    let o := octets f
    let stripped := decide (2 ≤ k ∧ o.getD 0 0 = 0x7E ∧ o.getD (k - 1) 0 = 0x7E)
    let body := if stripped then (o.drop 1).take (k - 2) else o
    let scan := byteDecLoop body body.length 0 ([], false, false)
    ∃ t, exec .byteDec s = .next t ∧
      t.publishes (withinCapacityWith t.diag s.params
        { out := fromOctets scan.1,
          diag := { misalignedTail := decide (f.length % 8 ≠ 0), short := decide (k < 2), missingDelim := decide (2 ≤ k) && !stripped,
                    incompleteEsc := scan.2.1, bareFlag := scan.2.2 } })

/-- R83: BIT_ENC stuffs a 0 after every fifth consecutive 1, by the spec's loop, and wraps the result in `01111110`; no body holds six 1s
in a row. -/
def Obligations.BitEncStuffsAfterFiveOnes : Prop :=
  ∀ s : State, s.params.wf → s.inLen.toNat ≤ s.params.maxInBits →
    let flag : Bits := [false, true, true, true, true, true, true, false]
    let body := (s.inString.foldl bitEncTurn ([], 0)).1
    ¬ List.replicate 6 true <:+: body ∧
    ∃ t, exec .bitEnc s = .next t ∧ t.publishes (withinCapacity s.params { out := flag ++ body ++ flag })

/-- R84: BIT_DEC strips a leading flag from the input and then a trailing one from what remains (else MISSING_DELIM), and drops each 0
after exactly five emitted 1s, by the spec's loop. What DIAG holds after
an output CAPACITY is said in UnitCommandFrame (log 18). -/
def Obligations.BitDecDropsStuffedZeros : Prop :=
  ∀ s : State, s.params.wf → s.inLen.toNat ≤ s.params.maxInBits →
    let flag : Bits := [false, true, true, true, true, true, true, false]
    let f := s.inString
    let y1 := if flag <+: f then f.drop 8 else f
    let y2 := if flag <:+ y1 then y1.take (y1.length - 8) else y1
    ∃ t, exec .bitDec s = .next t ∧
      t.publishes (withinCapacityWith t.diag s.params
        { out := (y2.foldl bitDecTurn ([], 0)).1, diag := { missingDelim := decide (¬ (flag <+: f ∧ flag <:+ y1)) } })

/-! ## Results: the detection codec (42_detection.md) -/

/-- R86: PAR_ENC appends one bit that makes the number of 1s even. -/
def Obligations.ParEncMakesTheOnesEven : Prop :=
  ∀ s : State, s.params.wf → s.inLen.toNat ≤ s.params.maxInBits →
    let x := s.inString
    ∃ t, exec .parEnc s = .next t ∧ t.publishes (withinCapacity s.params { out := x ++ [decide (x.count true % 2 = 1)] })

/-- R87: PAR_VER is valid exactly when the whole input has an even number of 1s, and returns it without its first PARITY_PAD bits and its
last bit; an input too short for that gives an empty output and SHORT. -/
def Obligations.ParVerChecksAndStrips : Prop :=
  ∀ s : State, s.params.wf → s.inLen.toNat ≤ s.params.maxInBits →
    let y := s.inString
    let P := s.pads.parityPad.toNat
    let v := decide (y.count true % 2 = 0)
    ∃ t, exec .parVer s = .next t ∧
      t.publishes (if y.length < P + 1 then { valid := v, diag := { short := true } }
        else withinCapacity s.params { out := (y.drop P).take (y.length - P - 1), valid := v })

/-- R88, R17: CS_ENC right-pads to octets and appends the complement of their folded sum S, where S is 0 for a sum of 0 and otherwise
1 + ((sum - 1) mod 255). -/
def Obligations.CsEncAppendsTheComplementedSum : Prop :=
  ∀ s : State, s.params.wf → s.inLen.toNat ≤ s.params.maxInBits →
    let p := s.inString ++ zeros ((8 - s.inString.length % 8) % 8)
    let sum := ((octets p).map BitVec.toNat).sum
    let c := 0xFF - (if sum = 0 then 0 else 1 + (sum - 1) % 255)
    ∃ t, exec .csEnc s = .next t ∧
      t.publishes (withinCapacity s.params { out := p ++ bitsOf (BitVec.ofNat 8 c), csumValue := BitVec.ofNat 8 c })

/-- R89, R17: CS_VER refuses a length that is not a multiple of 8 or is under 16 with MISALIGNED_FRAME; otherwise it is valid exactly when the
folded sum of all octets is 0xFF, and returns all but the last 8 bits. -/
def Obligations.CsVerChecksTheFoldedSum : Prop :=
  ∀ s : State, s.params.wf → s.inLen.toNat ≤ s.params.maxInBits →
    let y := s.inString
    let sum := ((octets y).map BitVec.toNat).sum
    let S := if sum = 0 then 0 else 1 + (sum - 1) % 255
    ∃ t, exec .csVer s = .next t ∧
      t.publishes (if y.length % 8 ≠ 0 ∨ y.length < 16 then { err := some .misalignedFrame }
        else withinCapacity s.params { out := y.take (y.length - 8), valid := decide (S = 0xFF), csumValue := BitVec.ofNat 8 S })

/-- R90, R18: CRC_ENC appends 64 zero bits and the 32-bit remainder of the padded message times 2^32 on division by G over GF(2), which
CRC_VALUE also holds. -/
def Obligations.CrcEncAppendsTheRemainder : Prop :=
  ∀ s : State, s.params.wf → s.inLen.toNat ≤ s.params.maxInBits →
    let m := s.inString ++ zeros 64
    ∃ t crc q, crc < 2 ^ 32 ∧ val m * 2 ^ 32 = carrylessMul q 0x104C11DB7 ^^^ crc ∧ exec .crcEnc s = .next t ∧
      t.publishes (withinCapacity s.params { out := m ++ bitsOf (BitVec.ofNat 32 crc), crcValue := BitVec.ofNat 32 crc })

/-- R91, R18: CRC_VER returns its input and is valid exactly when the input, as a polynomial over GF(2), is a multiple of G. -/
def Obligations.CrcVerIsValidOnMultiplesOfG : Prop :=
  ∀ s : State, s.params.wf → s.inLen.toNat ≤ s.params.maxInBits →
    let y := s.inString
    ∃ t v, (v = true ↔ ∃ q, val y = carrylessMul q 0x104C11DB7) ∧ exec .crcVer s = .next t ∧
      t.publishes (withinCapacity s.params { out := y, valid := v })

/-- R92: CRC_STRIP returns its input without the last 32 + CRC_PAD bits; an input shorter than that gives an empty output and SHORT. -/
def Obligations.CrcStripDropsCrcAndPad : Prop :=
  ∀ s : State, s.params.wf → s.inLen.toNat ≤ s.params.maxInBits →
    let y := s.inString
    let Q := s.pads.crcPad.toNat
    ∃ t, exec .crcStrip s = .next t ∧
      t.publishes (if y.length < 32 + Q then { diag := { short := true } }
        else withinCapacity s.params { out := y.take (y.length - 32 - Q) })

/-! ## Results: the correction codec (43_correction.md) -/

/-- R94, R95: HAM_ENC gives the codeword of n = r + m positions, r least with 2^r >= r + m + 1, that holds the data bits in order at the
positions that are no powers of two and in which each covering set, own position included, has an even number of 1s. -/
def Obligations.HamEncBuildsTheCodeword : Prop :=
  ∀ s : State, s.params.wf → s.inLen.toNat ≤ s.params.maxInBits →
    let m := s.inString.length
    ∃ t r w, exec .hamEnc s = .next t ∧ r + m + 1 ≤ 2 ^ r ∧ (∀ r', r' < r → 2 ^ r' < r' + m + 1) ∧ w.length = r + m
      ∧ dataAt w = s.inString ∧ (∀ i, 2 ^ i ≤ w.length → onesAt (fun j => j &&& 2 ^ i != 0) w % 2 = 0)
      ∧ t.publishes (withinCapacity s.params { out := w })

/-- R96: HAM_DEC's syndrome is the sum of the powers of two p <= n whose covering set has an odd number of 1s; 0 is CLEAN, up to n flips that
position and is CORRECTED, above n is UNCORRECTABLE with nothing flipped; the output is the data positions in order. What DIAG holds after
an output CAPACITY is said in UnitCommandFrame (log 18). -/
def Obligations.HamDecCorrectsTheNamedPosition : Prop :=
  ∀ s : State, s.params.wf → s.inLen.toNat ≤ s.params.maxInBits →
    let y := s.inString
    let n := y.length
    ∃ t syn, exec .hamDec s = .next t ∧
      (∀ i, syn.testBit i = true ↔ 2 ^ i ≤ n ∧ onesAt (fun j => j &&& 2 ^ i != 0) y % 2 = 1) ∧
      t.publishes (withinCapacityWith t.diag s.params
        { out := dataAt (if 1 ≤ syn ∧ syn ≤ n then y.modify (syn - 1) (!·) else y),
          corr := if syn = 0 then .clean else if syn ≤ n then .corrected else .uncorrectable,
          syndrome := syn, diag := { uncorrectable := decide (n < syn) } })

/-! ## Results: the pipeline (44_pipeline.md) -/

/-- R101, R98, R104: PIPE_TX with legal strategies whose stages all complete runs framing, correction and detection in that order, publishes
the last stage's string and its CRC or checksum with no diagnostic, and traces the three stage outputs when TRACE_EN is set. -/
def Obligations.PipeTxRunsFramingCorrectionDetection : Prop :=
  ∀ (s : State) (f : Framing) (k : Correction) (d : Detection) (r1 r2 r3 : Res), s.params.wf → s.inLen.toNat ≤ s.params.maxInBits →
    framingOf s.config.framing = some f → correctionOf s.config.correction = some k → detectionOf s.config.detection = some d →
    stageOk s.params.maxOutBits f.encoder s.inString r1 → stageOk s.params.maxOutBits k.encoder r1.out r2 →
    stageOk s.params.maxOutBits d.encoder r2.out r3 →
    ∃ t, exec .pipeTx s = .next t ∧ t.publishes { out := r3.out, crcValue := r3.crcValue, csumValue := r3.csumValue } ∧
      t.showsTraces s.config.traceEn (some r1.out) (some r2.out) (some r3.out)

/-- R102, R98, R103, R104: PIPE_RX with legal strategies whose stages all complete runs detection, correction and framing in that order, publishes
the last string, VALID and the folded sum of the detection stage, CORR and SYNDROME of the correction stage and the OR of the
diagnostics, and traces the three stage outputs when TRACE_EN is set. A failed check or an uncorrectable codeword does not stop it. R98's
receive engines: the CRC32 engine strips `32 + CRC_PAD` bits, or gives an empty output and SHORT, and is valid exactly when the whole
received string is a multiple of G over GF(2); NONE passes its input on, valid for detection; each other engine is that of its unit
command, with PARITY_PAD for parity. -/
def Obligations.PipeRxRunsDetectionCorrectionFraming : Prop :=
  (∀ (s : State) (f : Framing) (k : Correction) (d : Detection) (r1 r2 r3 : Res), s.params.wf → s.inLen.toNat ≤ s.params.maxInBits →
    framingOf s.config.framing = some f → correctionOf s.config.correction = some k → detectionOf s.config.detection = some d →
    stageOk s.params.maxOutBits (d.decoder s.pads.parityPad.toNat s.pads.crcPad.toNat) s.inString r1 →
    stageOk s.params.maxOutBits k.decoder r1.out r2 → stageOk s.params.maxOutBits f.decoder r2.out r3 →
    ∃ t, exec .pipeRx s = .next t ∧
      t.publishes { out := r3.out, valid := r1.valid, corr := r2.corr, syndrome := r2.syndrome, csumValue := r1.csumValue,
                    diag := (r1.diag.or r2.diag).or r3.diag } ∧
      t.showsTraces s.config.traceEn (some r1.out) (some r2.out) (some r3.out)) ∧
  (∀ (P Q : Nat) (y : Bits), ∃ v, (v = true ↔ ∃ q, val y = carrylessMul q 0x104C11DB7) ∧
    Detection.crc32.decoder P Q y = .ok (if y.length < 32 + Q then { valid := v, diag := { short := true } }
      else { out := y.take (y.length - 32 - Q), valid := v })) ∧
  (∀ (P Q : Nat) (y : Bits), Detection.none.decoder P Q y = .ok { out := y, valid := true } ∧ Correction.none.decoder y = .ok { out := y }) ∧
  (∀ s : State,
    let P := s.pads.parityPad.toNat
    let Q := s.pads.crcPad.toNat
    exec .parVer s = .next (s.completeUnit (Detection.parity.decoder P Q))
      ∧ exec .csVer s = .next (s.completeUnit (Detection.checksum.decoder P Q))
      ∧ exec .hamDec s = .next (s.completeUnit Correction.hamming.decoder)
      ∧ exec .ccDec s = .next (s.completeUnit Framing.charCount.decoder)
      ∧ exec .bitDec s = .next (s.completeUnit Framing.bitStuff.decoder)
      ∧ exec .byteDec s = .next (s.completeUnit Framing.byteStuff.decoder))

/-- R100: a pipeline command with a reserved strategy value ends in CONFIG_ERROR before any stage, and ERR_STAGE names the first such field in
the order FRAMING, CORRECTION, DETECTION, whatever the direction; no trace is recorded. -/
def Obligations.ConfigErrorNamesTheFirstReservedField : Prop :=
  ∀ (s : State) (i : Instr), i ∈ [Instr.pipeTx, .pipeRx] → s.inLen.toNat ≤ s.params.maxInBits →
    (s.config.framing = 3 → ∃ t, exec i s = .next t ∧ t.publishes { err := some .configError, errStage := some .framing }
      ∧ t.showsTraces s.config.traceEn none none none) ∧
    (s.config.framing ≠ 3 → 2 ≤ s.config.correction.toNat →
      ∃ t, exec i s = .next t ∧ t.publishes { err := some .configError, errStage := some .correction }
        ∧ t.showsTraces s.config.traceEn none none none) ∧
    (s.config.framing ≠ 3 → s.config.correction.toNat < 2 → 4 ≤ s.config.detection.toNat →
      ∃ t, exec i s = .next t ∧ t.publishes { err := some .configError, errStage := some .detection }
        ∧ t.showsTraces s.config.traceEn none none none)

/-- R108, R103, R104, R107: a stage of PIPE_TX that raises aborts the rest: ERR is its error, ERR_STAGE its CONFIG field, OUT_LEN 0, and the traces
and diagnostics of the completed stages stay. -/
def Obligations.PipeTxAbortsAtTheFailingStage : Prop :=
  ∀ (s : State) (f : Framing) (k : Correction) (d : Detection) (r1 r2 : Res) (e : HardError),
    s.params.wf → s.inLen.toNat ≤ s.params.maxInBits →
    framingOf s.config.framing = some f → correctionOf s.config.correction = some k → detectionOf s.config.detection = some d →
    let cap := s.params.maxOutBits
    (stageRaises cap f.encoder s.inString e →
      ∃ t, exec .pipeTx s = .next t ∧ t.publishes { err := some e, errStage := some .framing }
        ∧ t.showsTraces s.config.traceEn none none none) ∧
    (stageOk cap f.encoder s.inString r1 → stageRaises cap k.encoder r1.out e →
      ∃ t, exec .pipeTx s = .next t ∧ t.publishes { err := some e, errStage := some .correction, diag := r1.diag }
        ∧ t.showsTraces s.config.traceEn (some r1.out) none none) ∧
    (stageOk cap f.encoder s.inString r1 → stageOk cap k.encoder r1.out r2 → stageRaises cap d.encoder r2.out e →
      ∃ t, exec .pipeTx s = .next t ∧ t.publishes { err := some e, errStage := some .detection, diag := r1.diag.or r2.diag }
        ∧ t.showsTraces s.config.traceEn (some r1.out) (some r2.out) none)

/-- R108, R103, R104, R107: the same of PIPE_RX, whose stages are blamed on DETECTION, CORRECTION and FRAMING in that order. Its correction
stage never raises (R98, R102): the output of either decoder is no longer than its input. -/
def Obligations.PipeRxAbortsAtTheFailingStage : Prop :=
  ∀ (s : State) (f : Framing) (k : Correction) (d : Detection) (r1 r2 : Res) (e : HardError),
    s.params.wf → s.inLen.toNat ≤ s.params.maxInBits →
    framingOf s.config.framing = some f → correctionOf s.config.correction = some k → detectionOf s.config.detection = some d →
    let cap := s.params.maxOutBits
    let D := d.decoder s.pads.parityPad.toNat s.pads.crcPad.toNat
    (stageRaises cap D s.inString e →
      ∃ t, exec .pipeRx s = .next t ∧ t.publishes { err := some e, errStage := some .detection }
        ∧ t.showsTraces s.config.traceEn none none none) ∧
    (stageOk cap D s.inString r1 → ∃ r, stageOk cap k.decoder r1.out r) ∧
    (stageOk cap D s.inString r1 → stageOk cap k.decoder r1.out r2 → stageRaises cap f.decoder r2.out e →
      ∃ t, exec .pipeRx s = .next t ∧ t.publishes { err := some e, errStage := some .framing, diag := r1.diag.or r2.diag }
        ∧ t.showsTraces s.config.traceEn (some r1.out) (some r2.out) none)

/-- R102: PIPE_RX never ends in CAPACITY when its input fits IN and MAX_OUT_BITS >= MAX_IN_BITS, because no receive engine's output is longer than
its input. -/
def Obligations.PipeRxNeverOverflowsALargeEnoughOut : Prop :=
  ∀ s : State, s.params.maxInBits ≤ s.params.maxOutBits → s.inLen.toNat ≤ s.params.maxInBits →
    ∃ t, exec .pipeRx s = .next t ∧ t.err ≠ some .capacity

/-! ## Hard errors and frames (60_exceptions.md R108, R109) -/

/-- R109, R110: any command except XFER whose IN_LEN exceeds MAX_IN_BITS ends in CAPACITY with ERR_STAGE 0, whatever CONFIG holds; a pipeline
command then has no trace (log 15, DEDUCED). -/
def Obligations.InputAboveCapacityIsRefused : Prop :=
  ∀ (s : State) (i : Instr), i ≠ .xfer → s.params.maxInBits < s.inLen.toNat →
    ∃ t, exec i s = .next t ∧ t.publishes { err := some .capacity } ∧
      (i = .pipeTx ∨ i = .pipeRx → t.showsTraces s.config.traceEn none none none)

/-- R42, R104: the frame of the fifteen unit commands. Their completion writes the result registers and `OUT[0..OUT_LEN)`; CMD, CONFIG, PADS, IN,
IN_LEN, OVERRUN, the traces and every OUT bit at or past the new OUT_LEN are unchanged. DIAG does not depend on MAX_OUT_BITS: it holds the
flags the engine raised whether or not the output fits OUT, after CAPACITY too (R29, R108), which is the model's choice against R75's
pseudocode (log 18, DEDUCED). -/
def Obligations.UnitCommandFrame : Prop :=
  ∀ (s : State) (i : Instr), s.params.wf → i ∉ [Instr.xfer, .pipeTx, .pipeRx] →
    ∃ t, exec i s = .next t ∧ s.keepsOperands t ∧ s.keepsTraces t ∧ s.keepsRest t ∧ keepsBeyond s.out t.out t.outLen
      ∧ ∀ m, ∃ t', exec i { s with params := { s.params with maxOutBits := m } } = .next t' ∧ t'.diag = t.diag

/-- R42, R78, R104: the frames of XFER and of the pipeline commands. XFER writes the result registers and `IN[0..IN_LEN)`; a pipeline command writes
the result registers, `OUT[0..OUT_LEN)` and `TRACEk[0..TRACEk_LEN)`; every other register and every other bit is unchanged. -/
def Obligations.XferAndPipelineFrame : Prop :=
  ∀ s : State, s.params.wf →
    (∃ t, exec .xfer s = .next t ∧ t.cmd = s.cmd ∧ t.config = s.config ∧ t.pads = s.pads ∧ s.keepsTraces t ∧ s.keepsRest t
      ∧ t.out = s.out ∧ t.outLen = s.outLen ∧ keepsBeyond s.inBuf t.inBuf t.inLen) ∧
    (∀ i ∈ [Instr.pipeTx, .pipeRx], ∃ t, exec i s = .next t ∧ s.keepsOperands t ∧ s.keepsRest t ∧ keepsBeyond s.out t.out t.outLen
      ∧ keepsBeyond s.trace0 t.trace0 t.trace0Len ∧ keepsBeyond s.trace1 t.trace1 t.trace1Len
      ∧ keepsBeyond s.trace2 t.trace2 t.trace2Len)

/-! ## Laws of the primitives and engines (R17 to R20, R85, R93, R97) -/

/-- R17: the fold's result lies in 0..255, is 0 exactly for 0, and otherwise is 1 + ((v - 1) mod 255). -/
def Obligations.Fold8IsTheEndAroundCarry : Prop :=
  ∀ v : Nat, fold8 v ≤ 255 ∧ (fold8 v = 0 ↔ v = 0) ∧ (v ≠ 0 → fold8 v = 1 + (v - 1) % 255)

/-- R18: `crc_rem(V)` is the remainder of V divided by G over GF(2), and the only one below 2^32. -/
def Obligations.CrcRemIsThePolynomialRemainder : Prop :=
  ∀ v : Nat, crcRem v < 2 ^ 32 ∧ (∃ q, v = carrylessMul q 0x104C11DB7 ^^^ crcRem v) ∧
    ∀ q r, r < 2 ^ 32 → v = carrylessMul q 0x104C11DB7 ^^^ r → r = crcRem v

/-- R91: verifying with the encoder's 64-bit pad and 32-bit shift gives the same validity for every input. -/
def Obligations.CrcValidityIgnoresPadAndShift : Prop :=
  ∀ v : Nat, crcRem (v * 2 ^ 96) = 0 ↔ crcRem v = 0

/-- R19, R20: `is_pow2` holds of exactly the powers of two, and the covering set of p = 2^i is the union of the runs
`[p + 2kp, 2p - 1 + 2kp]`. -/
def Obligations.PowersOfTwoAndCoveringRuns : Prop :=
  (∀ j, 1 ≤ j → (isPow2 j = true ↔ ∃ i, j = 2 ^ i)) ∧
  (∀ i j, covers (2 ^ i) j = true ↔ ∃ k, 2 ^ i + 2 * k * 2 ^ i ≤ j ∧ j ≤ 2 * 2 ^ i - 1 + 2 * k * 2 ^ i)

/-- R85, R80: the framing round trips: exact for character-count on whole octets up to 2040 bits and for bit-stuffing always; for
byte-stuffing, and character-count on any length up to 2040, the left-padded string; no diagnostic. -/
def Obligations.FramingRoundTrips : Prop :=
  ∀ x : Bits,
    (x.length ≤ 2040 → ∃ r, ccEnc x = .ok r ∧ ccDec r.out = .ok { out := padLeft8 x }) ∧
    (x.length ≤ 2040 → x.length % 8 = 0 → ∃ r, ccEnc x = .ok r ∧ ccDec r.out = .ok { out := x }) ∧
    (∃ r, byteEnc x = .ok r ∧ byteDec r.out = .ok { out := padLeft8 x }) ∧
    (∃ r, bitEnc x = .ok r ∧ bitDec r.out = .ok { out := x })

/-- R93: verify accepts what encode made and returns the payload: parity with no pad, checksum of at least one bit with its right pad, CRC with
a strip of 64. -/
def Obligations.DetectionRoundTrips : Prop :=
  ∀ x : Bits,
    (∃ r, parEnc x = .ok r ∧ parVer 0 r.out = .ok { out := x, valid := true }) ∧
    (1 ≤ x.length → ∃ r, csEnc x = .ok r ∧ csVer r.out = .ok { out := padRight8 x, valid := true, csumValue := 0xFF }) ∧
    (∃ r, crcEnc x = .ok r ∧ crcVer r.out = .ok { out := r.out, valid := true } ∧ crcStrip 64 r.out = .ok { out := x })

/-- R93: a single flipped bit anywhere in the encoded block makes each verify report `valid = 0`. -/
def Obligations.SingleBitFlipsAreDetected : Prop :=
  ∀ (x : Bits) (i : Nat),
    (∀ r P, parEnc x = .ok r → i < r.out.length → ∃ q, parVer P (r.out.modify i (!·)) = .ok q ∧ q.valid = false) ∧
    (∀ r, 1 ≤ x.length → csEnc x = .ok r → i < r.out.length → ∃ q, csVer (r.out.modify i (!·)) = .ok q ∧ q.valid = false) ∧
    (∀ r, crcEnc x = .ok r → i < r.out.length → ∃ q, crcVer (r.out.modify i (!·)) = .ok q ∧ q.valid = false)

/-- R97: Hamming exactness: decoding a codeword gives the data with syndrome 0 and CLEAN, and decoding it with position i flipped gives the
data with syndrome i and CORRECTED, for every position i. -/
def Obligations.HammingDecodesEverySingleFlipExactly : Prop :=
  ∀ x : Bits, ∃ r, hamEnc x = .ok r ∧ hamDec r.out = .ok { out := x, corr := .clean, syndrome := 0 } ∧
    ∀ i, 1 ≤ i → i ≤ r.out.length →
      hamDec (r.out.modify (i - 1) (!·)) = .ok { out := x, corr := .corrected, syndrome := i }

/-! ## Headline results on whole command sequences -/

/-- R105: the clean round trip through the machine: PIPE_TX, XFER, PIPE_RX under one CONFIG and PADS. With every legal framing and correction,
and DETECTION NONE, PARITY (with PARITY_PAD = 0) or CRC32 (with CRC_PAD = 64), the receiver ends with no error, VALID = 1, CORR CLEAN and no
diagnostic, and OUT is the sender's input: exactly under BIT_STUFF, left-padded to octets under CHAR_COUNT and BYTE_STUFF. -/
def Obligations.PipelineRoundTripsWithoutChecksum : Prop :=
  ∀ (s t1 t2 t3 : State) (f : Framing) (k : Correction) (d : Detection), s.params.wf →
    framingOf s.config.framing = some f → correctionOf s.config.correction = some k → detectionOf s.config.detection = some d →
    d ≠ .checksum → (d = .parity → s.pads.parityPad = 0) → (d = .crc32 → s.pads.crcPad = 64) →
    exec .pipeTx s = .next t1 → t1.err = none → exec .xfer t1 = .next t2 → t2.err = none → exec .pipeRx t2 = .next t3 →
      t3.publishes { out := if f = .bitStuff then s.inString else padLeft8 s.inString, valid := true }

/-- R105: the CHECKSUM rows, for every legal framing and correction and all PADS. VALID is 1 with the folded sum 0xFF. Let e be the number of
right-pad bits of `cs_enc` that reach the framing decoder. CHAR_COUNT discards them and BYTE_STUFF drops them, with MISALIGNED_TAIL if
e > 0: both give the left-padded input. BIT_STUFF is exact if e = 0; if e > 0 it misses the trailing flag and returns the input followed by
the flag and e zero bits, with MISSING_DELIM. -/
def Obligations.PipelineRoundTripsWithChecksum : Prop :=
  ∀ (s t1 t2 t3 : State) (f : Framing) (k : Correction) (r1 r2 : Res), s.params.wf →
    framingOf s.config.framing = some f → correctionOf s.config.correction = some k →
    detectionOf s.config.detection = some .checksum →
    f.encoder s.inString = .ok r1 → k.encoder r1.out = .ok r2 →
    exec .pipeTx s = .next t1 → t1.err = none → exec .xfer t1 = .next t2 → t2.err = none → exec .pipeRx t2 = .next t3 →
      let x := s.inString
      let e := padReachingFraming k r2.out.length
      t3.publishes
        { out := match f with
            | .bitStuff => if e = 0 then x else x ++ [false, true, true, true, true, true, true, false] ++ zeros e
            | .charCount | .byteStuff => padLeft8 x,
          valid := true, csumValue := 0xFF,
          diag := { missingDelim := decide (f = .bitStuff ∧ 0 < e), misalignedTail := decide (f = .byteStuff ∧ 0 < e) } }

/-- R121: single-stepping a transmit pipeline: running its stages as unit commands joined by XFER gives the OUT, CRC_VALUE and CSUM_VALUE of PIPE_TX
on the same state, and the intermediate strings PIPE_TX traces. It is said of the pipelines in which every stage has a unit command: any framing,
CORRECTION HAMMING and a DETECTION other than NONE. -/
def Obligations.UnitCommandChainEqualsPipeTx : Prop :=
  ∀ (s a b c d e t : State) (f : Framing) (det : Detection) (fi di : Instr), s.params.wf →
    framingOf s.config.framing = some f → correctionOf s.config.correction = some .hamming →
    detectionOf s.config.detection = some det →
    (f, fi) ∈ [(Framing.charCount, Instr.ccEnc), (.bitStuff, .bitEnc), (.byteStuff, .byteEnc)] →
    (det, di) ∈ [(Detection.parity, Instr.parEnc), (.checksum, .csEnc), (.crc32, .crcEnc)] →
    exec fi s = .next a → exec .xfer a = .next b → exec .hamEnc b = .next c → exec .xfer c = .next d → exec di d = .next e →
    a.err = none → b.err = none → c.err = none → d.err = none → e.err = none → exec .pipeTx s = .next t →
      t.err = none ∧ t.outLen = e.outLen ∧ t.outString = e.outString ∧ t.crcValue = e.crcValue ∧ t.csumValue = e.csumValue
        ∧ t.showsTraces s.config.traceEn (some a.outString) (some c.outString) (some e.outString)
end

