-- ==== Sys2Proof/Laws/BitStrings.lean ====
section
/-! SUPPORT. The laws of the primitives on bit strings: lengths, and that bits, values and words convert without loss. -/

namespace Sys2Proof.Machine

@[simp] theorem length_zeros (k : Nat) : (zeros k).length = k := by simp [zeros]

@[simp] theorem length_bitsOf {n : Nat} (v : BitVec n) : (bitsOf v).length = n := by simp [bitsOf]

theorem length_slice (x : Bits) (a b : Nat) : (slice x a b).length = min b x.length - a := by simp [slice]

@[simp] theorem val_nil : val [] = 0 := rfl

theorem val_append (x : Bits) (b : Bool) : val (x ++ [b]) = 2 * val x + b.toNat := by
  simp [val, List.foldl_append]

theorem val_lt (x : Bits) : val x < 2 ^ x.length := by
  induction x using List.reverseRecOn with
  | nil => simp
  | append_singleton x b ih =>
    rw [val_append, List.length_append, List.length_singleton, Nat.pow_succ]
    have : b.toNat ≤ 1 := by cases b <;> simp
    omega

/-- Bit `k` of a string's value, counted from the least significant, is the string's bit `len - 1 - k` (R13). -/
theorem val_testBit (x : Bits) (k : Nat) (h : k < x.length) : (val x).testBit k = x[x.length - 1 - k] := by
  induction x using List.reverseRecOn generalizing k with
  | nil => simp at h
  | append_singleton x b ih =>
    rw [val_append]
    rw [List.length_append, List.length_singleton] at h
    have hb : b.toNat < 2 := by cases b <;> simp
    cases k with
    | zero =>
      simp only [Nat.testBit_zero, List.length_append, List.length_singleton]
      have : (2 * val x + b.toNat) % 2 = b.toNat := by omega
      rw [this]
      cases b <;> simp
    | succ k =>
      have hk : k < x.length := by omega
      rw [Nat.testBit_succ, show (2 * val x + b.toNat) / 2 = val x by omega, ih k hk]
      simp only [List.length_append, List.length_singleton]
      rw [List.getElem_append_left (by omega)]
      congr 1
      omega

/-- The word of 32 bits holds the string's bit j in its bit 31 - j (R52). -/
theorem wordOfBits_getMsbD (x : Bits) (h : x.length = 32) (j : Nat) (hj : j < 32) :
    (wordOfBits x).getMsbD j = x[j] := by
  rw [wordOfBits, BitVec.getMsbD_eq_getLsbD]
  simp only [hj, decide_true, Bool.true_and]
  rw [BitVec.getLsbD_ofNat, val_testBit x _ (by omega)]
  simp only [show 32 - 1 - j < 32 by omega, decide_true, Bool.true_and]
  congr 1
  omega

theorem bitsOf_getElem {n : Nat} (v : BitVec n) (j : Nat) (h : j < (bitsOf v).length) : (bitsOf v)[j] = v.getMsbD j := by
  simp [bitsOf]

/-- A string is the bits of its value (R12, R13). -/
theorem bitsOf_val (x : Bits) : bitsOf (BitVec.ofNat x.length (val x)) = x := by
  refine List.ext_getElem (by simp) fun j h1 h2 => ?_
  rw [bitsOf_getElem, BitVec.getMsbD_eq_getLsbD, BitVec.getLsbD_ofNat, val_testBit x _ (by omega)]
  simp only [h2, decide_true, Bool.true_and, show x.length - 1 - j < x.length by omega]
  congr 1
  omega

/-- A number is the value of its bits (R12, R13). -/
theorem val_bitsOf {n : Nat} (v : BitVec n) : val (bitsOf v) = v.toNat := by
  refine Nat.eq_of_testBit_eq fun k => ?_
  by_cases hk : k < n
  · rw [val_testBit _ _ (by simpa using hk), bitsOf_getElem, BitVec.getMsbD_eq_getLsbD]
    simp only [length_bitsOf, show n - 1 - k < n by omega, decide_true, Bool.true_and]
    rw [show n - 1 - (n - 1 - k) = k by omega, BitVec.getLsbD]
  · rw [Nat.testBit_lt_two_pow (lt_of_lt_of_le (val_lt _) (by simpa using Nat.pow_le_pow_right (by omega) (by omega))),
      Nat.testBit_lt_two_pow (lt_of_lt_of_le v.isLt (Nat.pow_le_pow_right (by omega) (by omega)))]

@[simp] theorem wordOfBits_bitsOf (v : Word) : wordOfBits (bitsOf v) = v := by
  rw [wordOfBits, val_bitsOf]
  exact BitVec.ofNat_toNat 32 v |>.trans (by simp)

theorem padLength_lt (x : Bits) : padLength x < 8 := Nat.mod_lt _ (by omega)

theorem padLength_add_mod (x : Bits) : (padLength x + x.length) % 8 = 0 := by unfold padLength; omega

theorem padLength_of_aligned {x : Bits} (h : x.length % 8 = 0) : padLength x = 0 := by simp [padLength, h]

@[simp] theorem length_padLeft8 (x : Bits) : (padLeft8 x).length = padLength x + x.length := by simp [padLeft8]

@[simp] theorem length_padRight8 (x : Bits) : (padRight8 x).length = x.length + padLength x := by simp [padRight8]

theorem padLeft8_of_aligned {x : Bits} (h : x.length % 8 = 0) : padLeft8 x = x := by
  simp [padLeft8, padLength_of_aligned h, zeros]

@[simp] theorem fromOctets_nil : fromOctets [] = [] := rfl

@[simp] theorem fromOctets_cons (v : Byte) (o : List Byte) : fromOctets (v :: o) = bitsOf v ++ fromOctets o := by
  simp [fromOctets]

@[simp] theorem fromOctets_append (o p : List Byte) : fromOctets (o ++ p) = fromOctets o ++ fromOctets p := by
  simp [fromOctets]

@[simp] theorem length_fromOctets (o : List Byte) : (fromOctets o).length = 8 * o.length := by
  induction o with
  | nil => simp
  | cons v o ih => simp [ih]; omega

theorem octets_of_eight (y rest : Bits) (h : y.length = 8) :
    octets (y ++ rest) = BitVec.ofNat 8 (val y) :: octets rest := by
  match y, h with
  | [b0, b1, b2, b3, b4, b5, b6, b7], _ => rfl

/-- The octets of a string of octets are those octets (R12). -/
@[simp] theorem octets_fromOctets (o : List Byte) : octets (fromOctets o) = o := by
  induction o with
  | nil => rfl
  | cons v o ih =>
    rw [fromOctets_cons, octets_of_eight _ _ (by simp), val_bitsOf, ih]
    simp

theorem length_octets (x : Bits) : (octets x).length = x.length / 8 := by
  induction x using octets.induct with
  | case1 b0 b1 b2 b3 b4 b5 b6 b7 rest ih => simp only [octets, List.length_cons, ih]; omega
  | case2 x h =>
    have : x.length < 8 := by
      rcases x with _ | ⟨b0, _ | ⟨b1, _ | ⟨b2, _ | ⟨b3, _ | ⟨b4, _ | ⟨b5, _ | ⟨b6, _ | ⟨b7, rest⟩⟩⟩⟩⟩⟩⟩⟩ <;> simp
      exact absurd rfl (h b0 b1 b2 b3 b4 b5 b6 b7 rest)
    rw [Nat.div_eq_of_lt this]
    unfold octets
    split
    · exact absurd rfl (h _ _ _ _ _ _ _ _ _)
    · rfl

/-- A byte-aligned string is the string of its octets (R12). -/
theorem fromOctets_octets (x : Bits) (h : x.length % 8 = 0) : fromOctets (octets x) = x := by
  induction x using octets.induct with
  | case1 b0 b1 b2 b3 b4 b5 b6 b7 rest ih =>
    have hr : rest.length % 8 = 0 := by simp only [List.length_cons] at h; omega
    rw [octets, fromOctets_cons, ih hr]
    have := bitsOf_val [b0, b1, b2, b3, b4, b5, b6, b7]
    simp only [List.length_cons, List.length_nil] at this
    rw [this]
    rfl
  | case2 x hx =>
    rcases x with _ | ⟨b0, _ | ⟨b1, _ | ⟨b2, _ | ⟨b3, _ | ⟨b4, _ | ⟨b5, _ | ⟨b6, _ | ⟨b7, rest⟩⟩⟩⟩⟩⟩⟩⟩ <;> simp at h
    · rfl
    · exact absurd rfl (hx b0 b1 b2 b3 b4 b5 b6 b7 rest)

@[simp] theorem xorAll_nil : xorAll [] = false := rfl

@[simp] theorem xorAll_cons (b : Bool) (x : Bits) : xorAll (b :: x) = (b ^^ xorAll x) := rfl

theorem xorAll_append (x y : Bits) : xorAll (x ++ y) = (xorAll x ^^ xorAll y) := by
  induction x with
  | nil => simp
  | cons b x ih => simp [ih]

end Sys2Proof.Machine
end

