-- ==== Sys2Proof/Laws/Buffers.lean ====
section
/-! SUPPORT. The laws of bit buffers: a read after a write, what a write leaves alone, and the canonical form. -/

namespace Sys2Proof.Machine

@[simp] theorem BitMem.get_nil (i : Nat) : BitMem.get [] i = none := rfl

theorem BitMem.get_cons (c : Nat × Bool) (m : BitMem) (i : Nat) :
    BitMem.get (c :: m) i = if c.1 = i then some c.2 else BitMem.get m i := by
  unfold BitMem.get
  by_cases h : c.1 = i <;> simp [h]

theorem BitMem.get_append (m n : BitMem) (i : Nat) :
    BitMem.get (m ++ n) i = (BitMem.get m i).or (BitMem.get n i) := by
  induction m with
  | nil => simp
  | cons c m ih =>
    rw [List.cons_append, BitMem.get_cons, BitMem.get_cons, ih]
    split <;> simp

/-- A filter that looks at the index alone keeps or drops every cell of an index together. -/
theorem BitMem.get_filter (q : Nat → Bool) (m : BitMem) (i : Nat) :
    BitMem.get (m.filter fun c => q c.1) i = if q i then BitMem.get m i else none := by
  induction m with
  | nil => simp
  | cons c m ih =>
    by_cases hc : q c.1 <;> by_cases hi : c.1 = i <;> simp_all [BitMem.get_cons]

@[simp] theorem BitMem.cells_nil (a : Nat) : BitMem.cells a [] = [] := rfl

@[simp] theorem BitMem.cells_cons (a : Nat) (b : Bool) (x : Bits) :
    BitMem.cells a (b :: x) = (a, b) :: BitMem.cells (a + 1) x := rfl

theorem BitMem.get_cells (x : Bits) (a i : Nat) :
    BitMem.get (BitMem.cells a x) i = if a ≤ i then x[i - a]? else none := by
  induction x generalizing a with
  | nil => simp
  | cons b x ih =>
    rw [BitMem.cells_cons, BitMem.get_cons, ih]
    rcases Nat.lt_trichotomy i a with h | h | h
    · simp [show ¬ a ≤ i by omega, show ¬ a + 1 ≤ i by omega, show a ≠ i by omega]
    · simp [h]
    · obtain ⟨k, rfl⟩ : ∃ k, i = a + 1 + k := ⟨i - (a + 1), by omega⟩
      simp [show a ≤ a + 1 + k by omega, show a ≠ a + 1 + k by omega, show a + 1 + k - a = k + 1 by omega]

/-- A read after a write: the written bits, and every other bit as before. -/
theorem BitMem.get_write (m : BitMem) (a : Nat) (x : Bits) (i : Nat) :
    (m.write a x).get i = if a ≤ i ∧ i < a + x.length then x[i - a]? else m.get i := by
  have hlo := BitMem.get_filter (fun k => decide (k < a)) m i
  have hhi := BitMem.get_filter (fun k => decide (a + x.length ≤ k)) m i
  rw [BitMem.write, BitMem.get_append, BitMem.get_append, BitMem.get_cells, hlo, hhi]
  by_cases h1 : i < a
  · simp [h1, show ¬ a ≤ i by omega, show ¬ a + x.length ≤ i by omega]
  · by_cases h2 : i < a + x.length
    · have : i - a < x.length := by omega
      simp [h1, h2, show a ≤ i by omega, this]
    · have : x.length ≤ i - a := by omega
      simp [h1, h2, show a ≤ i by omega, show a + x.length ≤ i by omega, this]

theorem BitMem.get_write_inside (m : BitMem) (a : Nat) (x : Bits) (i : Nat) (h : i < x.length) :
    (m.write a x).get (a + i) = x[i]? := by
  simp [BitMem.get_write, h]

theorem BitMem.get_write_outside (m : BitMem) (a : Nat) (x : Bits) (i : Nat) (h : i < a ∨ a + x.length ≤ i) :
    (m.write a x).get i = m.get i := by
  rw [BitMem.get_write, if_neg (by omega)]

theorem BitMem.mem_cells {x : Bits} {a : Nat} {c : Nat × Bool} (h : c ∈ BitMem.cells a x) :
    a ≤ c.1 ∧ c.1 < a + x.length := by
  induction x generalizing a with
  | nil => simp at h
  | cons b x ih =>
    rw [BitMem.cells_cons, List.mem_cons] at h
    rcases h with rfl | h
    · simp
    · have := ih h
      simp only [List.length_cons]; omega

theorem BitMem.cells_wf (a : Nat) (x : Bits) : (BitMem.cells a x).wf := by
  induction x generalizing a with
  | nil => simp
  | cons b x ih =>
    rw [BitMem.cells_cons]
    exact List.pairwise_cons.2 ⟨fun c hc => (BitMem.mem_cells hc).1, ih _⟩

/-- Every write keeps the canonical form. -/
theorem BitMem.write_wf {m : BitMem} (h : m.wf) (a : Nat) (x : Bits) : (m.write a x).wf := by
  rw [BitMem.write, BitMem.wf, List.pairwise_append, List.pairwise_append]
  refine ⟨⟨h.filter _, BitMem.cells_wf a x, ?_⟩, h.filter _, ?_⟩
  · intro c hc d hd
    have := BitMem.mem_cells hd
    simp at hc; omega
  · intro c hc d hd
    simp only [List.mem_append, List.mem_filter, decide_eq_true_eq] at hc hd
    rcases hc with hc | hc
    · omega
    · have := BitMem.mem_cells hc; omega

/-- A write inside the capacity leaves nothing past it. -/
theorem BitMem.write_within {m : BitMem} {cap a : Nat} {x : Bits} (h : ∀ c ∈ m, c.1 < cap) (hx : a + x.length ≤ cap) :
    ∀ c ∈ m.write a x, c.1 < cap := by
  intro c hc
  simp only [BitMem.write, List.mem_append, List.mem_filter] at hc
  rcases hc with (hc | hc) | hc
  · exact h c hc.1
  · have := BitMem.mem_cells hc; omega
  · exact h c hc.1

@[simp] theorem BitMem.read_length (m : BitMem) (n draw : Nat) : (m.read n draw).length = n := by
  simp [BitMem.read]

theorem BitMem.look_of_get {m : BitMem} {i : Nat} {b : Bool} (h : m.get i = some b) (draw : Nat) :
    m.look draw i = b := by
  simp [BitMem.look, h]

theorem BitMem.read_getElem (m : BitMem) (n draw i : Nat) (h : i < (m.read n draw).length) :
    (m.read n draw)[i] = m.look draw i := by
  simp [BitMem.read]

/-- A buffer whose first bits are those of `x` reads as `x`, whatever the draw. -/
theorem BitMem.read_of_get {m : BitMem} {x : Bits} (h : ∀ i, i < x.length → m.get i = x[i]?) (draw : Nat) :
    m.read x.length draw = x := by
  refine List.ext_getElem (by simp) fun i h1 h2 => ?_
  rw [BitMem.read_getElem]
  exact BitMem.look_of_get (by simp [h i h2, h2]) draw

/-- A write of `x` at the start of a buffer reads back as `x`. -/
theorem BitMem.read_write (m : BitMem) (x : Bits) (draw : Nat) : (m.write 0 x).read x.length draw = x :=
  BitMem.read_of_get (fun i h => by simpa using BitMem.get_write_inside m 0 x i h) draw

end Sys2Proof.Machine
end

