-- ==== Sys2Proof/Laws/State.lean ====
section
/-! SUPPORT. One lemma for each field of State under each update of Machine/Ops.lean, so that no proof unfolds a record
update: the fields an update writes, and those it leaves alone. -/

namespace Sys2Proof.Machine

/-! ## `State.writeOut` -/

@[simp] theorem State.writeOut_params (s : State) (x : Bits) : (s.writeOut x).params = s.params := rfl
@[simp] theorem State.writeOut_phase (s : State) (x : Bits) : (s.writeOut x).phase = s.phase := rfl
@[simp] theorem State.writeOut_cmd (s : State) (x : Bits) : (s.writeOut x).cmd = s.cmd := rfl
@[simp] theorem State.writeOut_done (s : State) (x : Bits) : (s.writeOut x).done = s.done := rfl
@[simp] theorem State.writeOut_valid (s : State) (x : Bits) : (s.writeOut x).valid = s.valid := rfl
@[simp] theorem State.writeOut_corr (s : State) (x : Bits) : (s.writeOut x).corr = s.corr := rfl
@[simp] theorem State.writeOut_err (s : State) (x : Bits) : (s.writeOut x).err = s.err := rfl
@[simp] theorem State.writeOut_errStage (s : State) (x : Bits) : (s.writeOut x).errStage = s.errStage := rfl
@[simp] theorem State.writeOut_overrun (s : State) (x : Bits) : (s.writeOut x).overrun = s.overrun := rfl
@[simp] theorem State.writeOut_diag (s : State) (x : Bits) : (s.writeOut x).diag = s.diag := rfl
@[simp] theorem State.writeOut_config (s : State) (x : Bits) : (s.writeOut x).config = s.config := rfl
@[simp] theorem State.writeOut_pads (s : State) (x : Bits) : (s.writeOut x).pads = s.pads := rfl
@[simp] theorem State.writeOut_inLen (s : State) (x : Bits) : (s.writeOut x).inLen = s.inLen := rfl
@[simp] theorem State.writeOut_outLen (s : State) (x : Bits) : (s.writeOut x).outLen = BitVec.ofNat 20 x.length := rfl
@[simp] theorem State.writeOut_syndrome (s : State) (x : Bits) : (s.writeOut x).syndrome = s.syndrome := rfl
@[simp] theorem State.writeOut_crcValue (s : State) (x : Bits) : (s.writeOut x).crcValue = s.crcValue := rfl
@[simp] theorem State.writeOut_csumValue (s : State) (x : Bits) : (s.writeOut x).csumValue = s.csumValue := rfl
@[simp] theorem State.writeOut_trace0Len (s : State) (x : Bits) : (s.writeOut x).trace0Len = s.trace0Len := rfl
@[simp] theorem State.writeOut_trace1Len (s : State) (x : Bits) : (s.writeOut x).trace1Len = s.trace1Len := rfl
@[simp] theorem State.writeOut_trace2Len (s : State) (x : Bits) : (s.writeOut x).trace2Len = s.trace2Len := rfl
@[simp] theorem State.writeOut_inBuf (s : State) (x : Bits) : (s.writeOut x).inBuf = s.inBuf := rfl
@[simp] theorem State.writeOut_out (s : State) (x : Bits) : (s.writeOut x).out = s.out.write 0 x := rfl
@[simp] theorem State.writeOut_trace0 (s : State) (x : Bits) : (s.writeOut x).trace0 = s.trace0 := rfl
@[simp] theorem State.writeOut_trace1 (s : State) (x : Bits) : (s.writeOut x).trace1 = s.trace1 := rfl
@[simp] theorem State.writeOut_trace2 (s : State) (x : Bits) : (s.writeOut x).trace2 = s.trace2 := rfl
@[simp] theorem State.writeOut_waiting (s : State) (x : Bits) : (s.writeOut x).waiting = s.waiting := rfl
@[simp] theorem State.writeOut_latencies (s : State) (x : Bits) : (s.writeOut x).latencies = s.latencies := rfl
@[simp] theorem State.writeOut_inputs (s : State) (x : Bits) : (s.writeOut x).inputs = s.inputs := rfl
@[simp] theorem State.writeOut_resp (s : State) (x : Bits) : (s.writeOut x).resp = s.resp := rfl
@[simp] theorem State.writeOut_draws (s : State) (x : Bits) : (s.writeOut x).draws = s.draws := rfl

/-! ## `State.writeResult` -/

@[simp] theorem State.writeResult_params (s : State) (r : Res) : (s.writeResult r).params = s.params := rfl
@[simp] theorem State.writeResult_phase (s : State) (r : Res) : (s.writeResult r).phase = .idle := rfl
@[simp] theorem State.writeResult_cmd (s : State) (r : Res) : (s.writeResult r).cmd = s.cmd := rfl
@[simp] theorem State.writeResult_done (s : State) (r : Res) : (s.writeResult r).done = true := rfl
@[simp] theorem State.writeResult_valid (s : State) (r : Res) : (s.writeResult r).valid = r.valid := rfl
@[simp] theorem State.writeResult_corr (s : State) (r : Res) : (s.writeResult r).corr = r.corr := rfl
@[simp] theorem State.writeResult_err (s : State) (r : Res) : (s.writeResult r).err = r.err := rfl
@[simp] theorem State.writeResult_errStage (s : State) (r : Res) : (s.writeResult r).errStage = r.errStage := rfl
@[simp] theorem State.writeResult_overrun (s : State) (r : Res) : (s.writeResult r).overrun = s.overrun := rfl
@[simp] theorem State.writeResult_diag (s : State) (r : Res) : (s.writeResult r).diag = r.diag := rfl
@[simp] theorem State.writeResult_config (s : State) (r : Res) : (s.writeResult r).config = s.config := rfl
@[simp] theorem State.writeResult_pads (s : State) (r : Res) : (s.writeResult r).pads = s.pads := rfl
@[simp] theorem State.writeResult_inLen (s : State) (r : Res) : (s.writeResult r).inLen = s.inLen := rfl
@[simp] theorem State.writeResult_outLen (s : State) (r : Res) : (s.writeResult r).outLen = s.outLen := rfl
@[simp] theorem State.writeResult_syndrome (s : State) (r : Res) : (s.writeResult r).syndrome = BitVec.ofNat 20 r.syndrome := rfl
@[simp] theorem State.writeResult_crcValue (s : State) (r : Res) : (s.writeResult r).crcValue = r.crcValue := rfl
@[simp] theorem State.writeResult_csumValue (s : State) (r : Res) : (s.writeResult r).csumValue = r.csumValue := rfl
@[simp] theorem State.writeResult_trace0Len (s : State) (r : Res) : (s.writeResult r).trace0Len = s.trace0Len := rfl
@[simp] theorem State.writeResult_trace1Len (s : State) (r : Res) : (s.writeResult r).trace1Len = s.trace1Len := rfl
@[simp] theorem State.writeResult_trace2Len (s : State) (r : Res) : (s.writeResult r).trace2Len = s.trace2Len := rfl
@[simp] theorem State.writeResult_inBuf (s : State) (r : Res) : (s.writeResult r).inBuf = s.inBuf := rfl
@[simp] theorem State.writeResult_out (s : State) (r : Res) : (s.writeResult r).out = s.out := rfl
@[simp] theorem State.writeResult_trace0 (s : State) (r : Res) : (s.writeResult r).trace0 = s.trace0 := rfl
@[simp] theorem State.writeResult_trace1 (s : State) (r : Res) : (s.writeResult r).trace1 = s.trace1 := rfl
@[simp] theorem State.writeResult_trace2 (s : State) (r : Res) : (s.writeResult r).trace2 = s.trace2 := rfl
@[simp] theorem State.writeResult_waiting (s : State) (r : Res) : (s.writeResult r).waiting = 0 := rfl
@[simp] theorem State.writeResult_latencies (s : State) (r : Res) : (s.writeResult r).latencies = s.latencies := rfl
@[simp] theorem State.writeResult_inputs (s : State) (r : Res) : (s.writeResult r).inputs = s.inputs := rfl
@[simp] theorem State.writeResult_resp (s : State) (r : Res) : (s.writeResult r).resp = s.resp := rfl
@[simp] theorem State.writeResult_draws (s : State) (r : Res) : (s.writeResult r).draws = s.draws + 1 := rfl

/-! ## `State.complete` -/

@[simp] theorem State.complete_params (s : State) (r : Res) : (s.complete r).params = s.params := rfl
@[simp] theorem State.complete_phase (s : State) (r : Res) : (s.complete r).phase = .idle := rfl
@[simp] theorem State.complete_cmd (s : State) (r : Res) : (s.complete r).cmd = s.cmd := rfl
@[simp] theorem State.complete_done (s : State) (r : Res) : (s.complete r).done = true := rfl
@[simp] theorem State.complete_valid (s : State) (r : Res) : (s.complete r).valid = r.valid := rfl
@[simp] theorem State.complete_corr (s : State) (r : Res) : (s.complete r).corr = r.corr := rfl
@[simp] theorem State.complete_err (s : State) (r : Res) : (s.complete r).err = r.err := rfl
@[simp] theorem State.complete_errStage (s : State) (r : Res) : (s.complete r).errStage = r.errStage := rfl
@[simp] theorem State.complete_overrun (s : State) (r : Res) : (s.complete r).overrun = s.overrun := rfl
@[simp] theorem State.complete_diag (s : State) (r : Res) : (s.complete r).diag = r.diag := rfl
@[simp] theorem State.complete_config (s : State) (r : Res) : (s.complete r).config = s.config := rfl
@[simp] theorem State.complete_pads (s : State) (r : Res) : (s.complete r).pads = s.pads := rfl
@[simp] theorem State.complete_inLen (s : State) (r : Res) : (s.complete r).inLen = s.inLen := rfl
@[simp] theorem State.complete_outLen (s : State) (r : Res) : (s.complete r).outLen = BitVec.ofNat 20 r.out.length := rfl
@[simp] theorem State.complete_syndrome (s : State) (r : Res) : (s.complete r).syndrome = BitVec.ofNat 20 r.syndrome := rfl
@[simp] theorem State.complete_crcValue (s : State) (r : Res) : (s.complete r).crcValue = r.crcValue := rfl
@[simp] theorem State.complete_csumValue (s : State) (r : Res) : (s.complete r).csumValue = r.csumValue := rfl
@[simp] theorem State.complete_trace0Len (s : State) (r : Res) : (s.complete r).trace0Len = s.trace0Len := rfl
@[simp] theorem State.complete_trace1Len (s : State) (r : Res) : (s.complete r).trace1Len = s.trace1Len := rfl
@[simp] theorem State.complete_trace2Len (s : State) (r : Res) : (s.complete r).trace2Len = s.trace2Len := rfl
@[simp] theorem State.complete_inBuf (s : State) (r : Res) : (s.complete r).inBuf = s.inBuf := rfl
@[simp] theorem State.complete_out (s : State) (r : Res) : (s.complete r).out = s.out.write 0 r.out := rfl
@[simp] theorem State.complete_trace0 (s : State) (r : Res) : (s.complete r).trace0 = s.trace0 := rfl
@[simp] theorem State.complete_trace1 (s : State) (r : Res) : (s.complete r).trace1 = s.trace1 := rfl
@[simp] theorem State.complete_trace2 (s : State) (r : Res) : (s.complete r).trace2 = s.trace2 := rfl
@[simp] theorem State.complete_waiting (s : State) (r : Res) : (s.complete r).waiting = 0 := rfl
@[simp] theorem State.complete_latencies (s : State) (r : Res) : (s.complete r).latencies = s.latencies := rfl
@[simp] theorem State.complete_inputs (s : State) (r : Res) : (s.complete r).inputs = s.inputs := rfl
@[simp] theorem State.complete_resp (s : State) (r : Res) : (s.complete r).resp = s.resp := rfl
@[simp] theorem State.complete_draws (s : State) (r : Res) : (s.complete r).draws = s.draws + 1 := rfl

/-! ## `State.writeIn` -/

@[simp] theorem State.writeIn_params (s : State) (x : Bits) : (s.writeIn x).params = s.params := rfl
@[simp] theorem State.writeIn_phase (s : State) (x : Bits) : (s.writeIn x).phase = s.phase := rfl
@[simp] theorem State.writeIn_cmd (s : State) (x : Bits) : (s.writeIn x).cmd = s.cmd := rfl
@[simp] theorem State.writeIn_done (s : State) (x : Bits) : (s.writeIn x).done = s.done := rfl
@[simp] theorem State.writeIn_valid (s : State) (x : Bits) : (s.writeIn x).valid = s.valid := rfl
@[simp] theorem State.writeIn_corr (s : State) (x : Bits) : (s.writeIn x).corr = s.corr := rfl
@[simp] theorem State.writeIn_err (s : State) (x : Bits) : (s.writeIn x).err = s.err := rfl
@[simp] theorem State.writeIn_errStage (s : State) (x : Bits) : (s.writeIn x).errStage = s.errStage := rfl
@[simp] theorem State.writeIn_overrun (s : State) (x : Bits) : (s.writeIn x).overrun = s.overrun := rfl
@[simp] theorem State.writeIn_diag (s : State) (x : Bits) : (s.writeIn x).diag = s.diag := rfl
@[simp] theorem State.writeIn_config (s : State) (x : Bits) : (s.writeIn x).config = s.config := rfl
@[simp] theorem State.writeIn_pads (s : State) (x : Bits) : (s.writeIn x).pads = s.pads := rfl
@[simp] theorem State.writeIn_inLen (s : State) (x : Bits) : (s.writeIn x).inLen = BitVec.ofNat 20 x.length := rfl
@[simp] theorem State.writeIn_outLen (s : State) (x : Bits) : (s.writeIn x).outLen = s.outLen := rfl
@[simp] theorem State.writeIn_syndrome (s : State) (x : Bits) : (s.writeIn x).syndrome = s.syndrome := rfl
@[simp] theorem State.writeIn_crcValue (s : State) (x : Bits) : (s.writeIn x).crcValue = s.crcValue := rfl
@[simp] theorem State.writeIn_csumValue (s : State) (x : Bits) : (s.writeIn x).csumValue = s.csumValue := rfl
@[simp] theorem State.writeIn_trace0Len (s : State) (x : Bits) : (s.writeIn x).trace0Len = s.trace0Len := rfl
@[simp] theorem State.writeIn_trace1Len (s : State) (x : Bits) : (s.writeIn x).trace1Len = s.trace1Len := rfl
@[simp] theorem State.writeIn_trace2Len (s : State) (x : Bits) : (s.writeIn x).trace2Len = s.trace2Len := rfl
@[simp] theorem State.writeIn_inBuf (s : State) (x : Bits) : (s.writeIn x).inBuf = s.inBuf.write 0 x := rfl
@[simp] theorem State.writeIn_out (s : State) (x : Bits) : (s.writeIn x).out = s.out := rfl
@[simp] theorem State.writeIn_trace0 (s : State) (x : Bits) : (s.writeIn x).trace0 = s.trace0 := rfl
@[simp] theorem State.writeIn_trace1 (s : State) (x : Bits) : (s.writeIn x).trace1 = s.trace1 := rfl
@[simp] theorem State.writeIn_trace2 (s : State) (x : Bits) : (s.writeIn x).trace2 = s.trace2 := rfl
@[simp] theorem State.writeIn_waiting (s : State) (x : Bits) : (s.writeIn x).waiting = s.waiting := rfl
@[simp] theorem State.writeIn_latencies (s : State) (x : Bits) : (s.writeIn x).latencies = s.latencies := rfl
@[simp] theorem State.writeIn_inputs (s : State) (x : Bits) : (s.writeIn x).inputs = s.inputs := rfl
@[simp] theorem State.writeIn_resp (s : State) (x : Bits) : (s.writeIn x).resp = s.resp := rfl
@[simp] theorem State.writeIn_draws (s : State) (x : Bits) : (s.writeIn x).draws = s.draws := rfl

/-! ## `State.accept` -/

@[simp] theorem State.accept_params (s : State) (v : Word) : (s.accept v).params = s.params := rfl
@[simp] theorem State.accept_phase (s : State) (v : Word) : (s.accept v).phase = .busy := rfl
@[simp] theorem State.accept_cmd (s : State) (v : Word) : (s.accept v).cmd = v := rfl
@[simp] theorem State.accept_done (s : State) (v : Word) : (s.accept v).done = false := rfl
@[simp] theorem State.accept_valid (s : State) (v : Word) : (s.accept v).valid = s.valid := rfl
@[simp] theorem State.accept_corr (s : State) (v : Word) : (s.accept v).corr = s.corr := rfl
@[simp] theorem State.accept_err (s : State) (v : Word) : (s.accept v).err = s.err := rfl
@[simp] theorem State.accept_errStage (s : State) (v : Word) : (s.accept v).errStage = s.errStage := rfl
@[simp] theorem State.accept_overrun (s : State) (v : Word) : (s.accept v).overrun = s.overrun := rfl
@[simp] theorem State.accept_diag (s : State) (v : Word) : (s.accept v).diag = s.diag := rfl
@[simp] theorem State.accept_config (s : State) (v : Word) : (s.accept v).config = s.config := rfl
@[simp] theorem State.accept_pads (s : State) (v : Word) : (s.accept v).pads = s.pads := rfl
@[simp] theorem State.accept_inLen (s : State) (v : Word) : (s.accept v).inLen = s.inLen := rfl
@[simp] theorem State.accept_outLen (s : State) (v : Word) : (s.accept v).outLen = s.outLen := rfl
@[simp] theorem State.accept_syndrome (s : State) (v : Word) : (s.accept v).syndrome = s.syndrome := rfl
@[simp] theorem State.accept_crcValue (s : State) (v : Word) : (s.accept v).crcValue = s.crcValue := rfl
@[simp] theorem State.accept_csumValue (s : State) (v : Word) : (s.accept v).csumValue = s.csumValue := rfl
@[simp] theorem State.accept_trace0Len (s : State) (v : Word) : (s.accept v).trace0Len = s.trace0Len := rfl
@[simp] theorem State.accept_trace1Len (s : State) (v : Word) : (s.accept v).trace1Len = s.trace1Len := rfl
@[simp] theorem State.accept_trace2Len (s : State) (v : Word) : (s.accept v).trace2Len = s.trace2Len := rfl
@[simp] theorem State.accept_inBuf (s : State) (v : Word) : (s.accept v).inBuf = s.inBuf := rfl
@[simp] theorem State.accept_out (s : State) (v : Word) : (s.accept v).out = s.out := rfl
@[simp] theorem State.accept_trace0 (s : State) (v : Word) : (s.accept v).trace0 = s.trace0 := rfl
@[simp] theorem State.accept_trace1 (s : State) (v : Word) : (s.accept v).trace1 = s.trace1 := rfl
@[simp] theorem State.accept_trace2 (s : State) (v : Word) : (s.accept v).trace2 = s.trace2 := rfl
@[simp] theorem State.accept_waiting (s : State) (v : Word) : (s.accept v).waiting = s.latencies.headD 0 := rfl
@[simp] theorem State.accept_latencies (s : State) (v : Word) : (s.accept v).latencies = s.latencies.tail := rfl
@[simp] theorem State.accept_inputs (s : State) (v : Word) : (s.accept v).inputs = s.inputs := rfl
@[simp] theorem State.accept_resp (s : State) (v : Word) : (s.accept v).resp = s.resp := rfl
@[simp] theorem State.accept_draws (s : State) (v : Word) : (s.accept v).draws = s.draws := rfl

/-! ## `State.writeStatus` -/

@[simp] theorem State.writeStatus_params (s : State) (v : Word) : (s.writeStatus v).params = s.params := rfl
@[simp] theorem State.writeStatus_phase (s : State) (v : Word) : (s.writeStatus v).phase = s.phase := rfl
@[simp] theorem State.writeStatus_cmd (s : State) (v : Word) : (s.writeStatus v).cmd = s.cmd := rfl
@[simp] theorem State.writeStatus_done (s : State) (v : Word) : (s.writeStatus v).done = s.done := rfl
@[simp] theorem State.writeStatus_valid (s : State) (v : Word) : (s.writeStatus v).valid = s.valid := rfl
@[simp] theorem State.writeStatus_corr (s : State) (v : Word) : (s.writeStatus v).corr = s.corr := rfl
@[simp] theorem State.writeStatus_err (s : State) (v : Word) : (s.writeStatus v).err = s.err := rfl
@[simp] theorem State.writeStatus_errStage (s : State) (v : Word) : (s.writeStatus v).errStage = s.errStage := rfl
@[simp] theorem State.writeStatus_overrun (s : State) (v : Word) : (s.writeStatus v).overrun = (s.overrun && !v.getLsbD 15) := rfl
@[simp] theorem State.writeStatus_diag (s : State) (v : Word) : (s.writeStatus v).diag = s.diag := rfl
@[simp] theorem State.writeStatus_config (s : State) (v : Word) : (s.writeStatus v).config = s.config := rfl
@[simp] theorem State.writeStatus_pads (s : State) (v : Word) : (s.writeStatus v).pads = s.pads := rfl
@[simp] theorem State.writeStatus_inLen (s : State) (v : Word) : (s.writeStatus v).inLen = s.inLen := rfl
@[simp] theorem State.writeStatus_outLen (s : State) (v : Word) : (s.writeStatus v).outLen = s.outLen := rfl
@[simp] theorem State.writeStatus_syndrome (s : State) (v : Word) : (s.writeStatus v).syndrome = s.syndrome := rfl
@[simp] theorem State.writeStatus_crcValue (s : State) (v : Word) : (s.writeStatus v).crcValue = s.crcValue := rfl
@[simp] theorem State.writeStatus_csumValue (s : State) (v : Word) : (s.writeStatus v).csumValue = s.csumValue := rfl
@[simp] theorem State.writeStatus_trace0Len (s : State) (v : Word) : (s.writeStatus v).trace0Len = s.trace0Len := rfl
@[simp] theorem State.writeStatus_trace1Len (s : State) (v : Word) : (s.writeStatus v).trace1Len = s.trace1Len := rfl
@[simp] theorem State.writeStatus_trace2Len (s : State) (v : Word) : (s.writeStatus v).trace2Len = s.trace2Len := rfl
@[simp] theorem State.writeStatus_inBuf (s : State) (v : Word) : (s.writeStatus v).inBuf = s.inBuf := rfl
@[simp] theorem State.writeStatus_out (s : State) (v : Word) : (s.writeStatus v).out = s.out := rfl
@[simp] theorem State.writeStatus_trace0 (s : State) (v : Word) : (s.writeStatus v).trace0 = s.trace0 := rfl
@[simp] theorem State.writeStatus_trace1 (s : State) (v : Word) : (s.writeStatus v).trace1 = s.trace1 := rfl
@[simp] theorem State.writeStatus_trace2 (s : State) (v : Word) : (s.writeStatus v).trace2 = s.trace2 := rfl
@[simp] theorem State.writeStatus_waiting (s : State) (v : Word) : (s.writeStatus v).waiting = s.waiting := rfl
@[simp] theorem State.writeStatus_latencies (s : State) (v : Word) : (s.writeStatus v).latencies = s.latencies := rfl
@[simp] theorem State.writeStatus_inputs (s : State) (v : Word) : (s.writeStatus v).inputs = s.inputs := rfl
@[simp] theorem State.writeStatus_resp (s : State) (v : Word) : (s.writeStatus v).resp = s.resp := rfl
@[simp] theorem State.writeStatus_draws (s : State) (v : Word) : (s.writeStatus v).draws = s.draws := rfl

/-! ## `State.setOverrun` -/

@[simp] theorem State.setOverrun_params (s : State) : (s.setOverrun).params = s.params := rfl
@[simp] theorem State.setOverrun_phase (s : State) : (s.setOverrun).phase = s.phase := rfl
@[simp] theorem State.setOverrun_cmd (s : State) : (s.setOverrun).cmd = s.cmd := rfl
@[simp] theorem State.setOverrun_done (s : State) : (s.setOverrun).done = s.done := rfl
@[simp] theorem State.setOverrun_valid (s : State) : (s.setOverrun).valid = s.valid := rfl
@[simp] theorem State.setOverrun_corr (s : State) : (s.setOverrun).corr = s.corr := rfl
@[simp] theorem State.setOverrun_err (s : State) : (s.setOverrun).err = s.err := rfl
@[simp] theorem State.setOverrun_errStage (s : State) : (s.setOverrun).errStage = s.errStage := rfl
@[simp] theorem State.setOverrun_overrun (s : State) : (s.setOverrun).overrun = true := rfl
@[simp] theorem State.setOverrun_diag (s : State) : (s.setOverrun).diag = s.diag := rfl
@[simp] theorem State.setOverrun_config (s : State) : (s.setOverrun).config = s.config := rfl
@[simp] theorem State.setOverrun_pads (s : State) : (s.setOverrun).pads = s.pads := rfl
@[simp] theorem State.setOverrun_inLen (s : State) : (s.setOverrun).inLen = s.inLen := rfl
@[simp] theorem State.setOverrun_outLen (s : State) : (s.setOverrun).outLen = s.outLen := rfl
@[simp] theorem State.setOverrun_syndrome (s : State) : (s.setOverrun).syndrome = s.syndrome := rfl
@[simp] theorem State.setOverrun_crcValue (s : State) : (s.setOverrun).crcValue = s.crcValue := rfl
@[simp] theorem State.setOverrun_csumValue (s : State) : (s.setOverrun).csumValue = s.csumValue := rfl
@[simp] theorem State.setOverrun_trace0Len (s : State) : (s.setOverrun).trace0Len = s.trace0Len := rfl
@[simp] theorem State.setOverrun_trace1Len (s : State) : (s.setOverrun).trace1Len = s.trace1Len := rfl
@[simp] theorem State.setOverrun_trace2Len (s : State) : (s.setOverrun).trace2Len = s.trace2Len := rfl
@[simp] theorem State.setOverrun_inBuf (s : State) : (s.setOverrun).inBuf = s.inBuf := rfl
@[simp] theorem State.setOverrun_out (s : State) : (s.setOverrun).out = s.out := rfl
@[simp] theorem State.setOverrun_trace0 (s : State) : (s.setOverrun).trace0 = s.trace0 := rfl
@[simp] theorem State.setOverrun_trace1 (s : State) : (s.setOverrun).trace1 = s.trace1 := rfl
@[simp] theorem State.setOverrun_trace2 (s : State) : (s.setOverrun).trace2 = s.trace2 := rfl
@[simp] theorem State.setOverrun_waiting (s : State) : (s.setOverrun).waiting = s.waiting := rfl
@[simp] theorem State.setOverrun_latencies (s : State) : (s.setOverrun).latencies = s.latencies := rfl
@[simp] theorem State.setOverrun_inputs (s : State) : (s.setOverrun).inputs = s.inputs := rfl
@[simp] theorem State.setOverrun_resp (s : State) : (s.setOverrun).resp = s.resp := rfl
@[simp] theorem State.setOverrun_draws (s : State) : (s.setOverrun).draws = s.draws := rfl

/-! ## `State.writeConfig` -/

@[simp] theorem State.writeConfig_params (s : State) (v : Word) : (s.writeConfig v).params = s.params := rfl
@[simp] theorem State.writeConfig_phase (s : State) (v : Word) : (s.writeConfig v).phase = s.phase := rfl
@[simp] theorem State.writeConfig_cmd (s : State) (v : Word) : (s.writeConfig v).cmd = s.cmd := rfl
@[simp] theorem State.writeConfig_done (s : State) (v : Word) : (s.writeConfig v).done = s.done := rfl
@[simp] theorem State.writeConfig_valid (s : State) (v : Word) : (s.writeConfig v).valid = s.valid := rfl
@[simp] theorem State.writeConfig_corr (s : State) (v : Word) : (s.writeConfig v).corr = s.corr := rfl
@[simp] theorem State.writeConfig_err (s : State) (v : Word) : (s.writeConfig v).err = s.err := rfl
@[simp] theorem State.writeConfig_errStage (s : State) (v : Word) : (s.writeConfig v).errStage = s.errStage := rfl
@[simp] theorem State.writeConfig_overrun (s : State) (v : Word) : (s.writeConfig v).overrun = s.overrun := rfl
@[simp] theorem State.writeConfig_diag (s : State) (v : Word) : (s.writeConfig v).diag = s.diag := rfl
@[simp] theorem State.writeConfig_config (s : State) (v : Word) : (s.writeConfig v).config = ConfigReg.ofWord v := rfl
@[simp] theorem State.writeConfig_pads (s : State) (v : Word) : (s.writeConfig v).pads = s.pads := rfl
@[simp] theorem State.writeConfig_inLen (s : State) (v : Word) : (s.writeConfig v).inLen = s.inLen := rfl
@[simp] theorem State.writeConfig_outLen (s : State) (v : Word) : (s.writeConfig v).outLen = s.outLen := rfl
@[simp] theorem State.writeConfig_syndrome (s : State) (v : Word) : (s.writeConfig v).syndrome = s.syndrome := rfl
@[simp] theorem State.writeConfig_crcValue (s : State) (v : Word) : (s.writeConfig v).crcValue = s.crcValue := rfl
@[simp] theorem State.writeConfig_csumValue (s : State) (v : Word) : (s.writeConfig v).csumValue = s.csumValue := rfl
@[simp] theorem State.writeConfig_trace0Len (s : State) (v : Word) : (s.writeConfig v).trace0Len = s.trace0Len := rfl
@[simp] theorem State.writeConfig_trace1Len (s : State) (v : Word) : (s.writeConfig v).trace1Len = s.trace1Len := rfl
@[simp] theorem State.writeConfig_trace2Len (s : State) (v : Word) : (s.writeConfig v).trace2Len = s.trace2Len := rfl
@[simp] theorem State.writeConfig_inBuf (s : State) (v : Word) : (s.writeConfig v).inBuf = s.inBuf := rfl
@[simp] theorem State.writeConfig_out (s : State) (v : Word) : (s.writeConfig v).out = s.out := rfl
@[simp] theorem State.writeConfig_trace0 (s : State) (v : Word) : (s.writeConfig v).trace0 = s.trace0 := rfl
@[simp] theorem State.writeConfig_trace1 (s : State) (v : Word) : (s.writeConfig v).trace1 = s.trace1 := rfl
@[simp] theorem State.writeConfig_trace2 (s : State) (v : Word) : (s.writeConfig v).trace2 = s.trace2 := rfl
@[simp] theorem State.writeConfig_waiting (s : State) (v : Word) : (s.writeConfig v).waiting = s.waiting := rfl
@[simp] theorem State.writeConfig_latencies (s : State) (v : Word) : (s.writeConfig v).latencies = s.latencies := rfl
@[simp] theorem State.writeConfig_inputs (s : State) (v : Word) : (s.writeConfig v).inputs = s.inputs := rfl
@[simp] theorem State.writeConfig_resp (s : State) (v : Word) : (s.writeConfig v).resp = s.resp := rfl
@[simp] theorem State.writeConfig_draws (s : State) (v : Word) : (s.writeConfig v).draws = s.draws := rfl

/-! ## `State.writePads` -/

@[simp] theorem State.writePads_params (s : State) (v : Word) : (s.writePads v).params = s.params := rfl
@[simp] theorem State.writePads_phase (s : State) (v : Word) : (s.writePads v).phase = s.phase := rfl
@[simp] theorem State.writePads_cmd (s : State) (v : Word) : (s.writePads v).cmd = s.cmd := rfl
@[simp] theorem State.writePads_done (s : State) (v : Word) : (s.writePads v).done = s.done := rfl
@[simp] theorem State.writePads_valid (s : State) (v : Word) : (s.writePads v).valid = s.valid := rfl
@[simp] theorem State.writePads_corr (s : State) (v : Word) : (s.writePads v).corr = s.corr := rfl
@[simp] theorem State.writePads_err (s : State) (v : Word) : (s.writePads v).err = s.err := rfl
@[simp] theorem State.writePads_errStage (s : State) (v : Word) : (s.writePads v).errStage = s.errStage := rfl
@[simp] theorem State.writePads_overrun (s : State) (v : Word) : (s.writePads v).overrun = s.overrun := rfl
@[simp] theorem State.writePads_diag (s : State) (v : Word) : (s.writePads v).diag = s.diag := rfl
@[simp] theorem State.writePads_config (s : State) (v : Word) : (s.writePads v).config = s.config := rfl
@[simp] theorem State.writePads_pads (s : State) (v : Word) : (s.writePads v).pads = PadsReg.ofWord v := rfl
@[simp] theorem State.writePads_inLen (s : State) (v : Word) : (s.writePads v).inLen = s.inLen := rfl
@[simp] theorem State.writePads_outLen (s : State) (v : Word) : (s.writePads v).outLen = s.outLen := rfl
@[simp] theorem State.writePads_syndrome (s : State) (v : Word) : (s.writePads v).syndrome = s.syndrome := rfl
@[simp] theorem State.writePads_crcValue (s : State) (v : Word) : (s.writePads v).crcValue = s.crcValue := rfl
@[simp] theorem State.writePads_csumValue (s : State) (v : Word) : (s.writePads v).csumValue = s.csumValue := rfl
@[simp] theorem State.writePads_trace0Len (s : State) (v : Word) : (s.writePads v).trace0Len = s.trace0Len := rfl
@[simp] theorem State.writePads_trace1Len (s : State) (v : Word) : (s.writePads v).trace1Len = s.trace1Len := rfl
@[simp] theorem State.writePads_trace2Len (s : State) (v : Word) : (s.writePads v).trace2Len = s.trace2Len := rfl
@[simp] theorem State.writePads_inBuf (s : State) (v : Word) : (s.writePads v).inBuf = s.inBuf := rfl
@[simp] theorem State.writePads_out (s : State) (v : Word) : (s.writePads v).out = s.out := rfl
@[simp] theorem State.writePads_trace0 (s : State) (v : Word) : (s.writePads v).trace0 = s.trace0 := rfl
@[simp] theorem State.writePads_trace1 (s : State) (v : Word) : (s.writePads v).trace1 = s.trace1 := rfl
@[simp] theorem State.writePads_trace2 (s : State) (v : Word) : (s.writePads v).trace2 = s.trace2 := rfl
@[simp] theorem State.writePads_waiting (s : State) (v : Word) : (s.writePads v).waiting = s.waiting := rfl
@[simp] theorem State.writePads_latencies (s : State) (v : Word) : (s.writePads v).latencies = s.latencies := rfl
@[simp] theorem State.writePads_inputs (s : State) (v : Word) : (s.writePads v).inputs = s.inputs := rfl
@[simp] theorem State.writePads_resp (s : State) (v : Word) : (s.writePads v).resp = s.resp := rfl
@[simp] theorem State.writePads_draws (s : State) (v : Word) : (s.writePads v).draws = s.draws := rfl

/-! ## `State.writeInLen` -/

@[simp] theorem State.writeInLen_params (s : State) (v : Word) : (s.writeInLen v).params = s.params := rfl
@[simp] theorem State.writeInLen_phase (s : State) (v : Word) : (s.writeInLen v).phase = s.phase := rfl
@[simp] theorem State.writeInLen_cmd (s : State) (v : Word) : (s.writeInLen v).cmd = s.cmd := rfl
@[simp] theorem State.writeInLen_done (s : State) (v : Word) : (s.writeInLen v).done = s.done := rfl
@[simp] theorem State.writeInLen_valid (s : State) (v : Word) : (s.writeInLen v).valid = s.valid := rfl
@[simp] theorem State.writeInLen_corr (s : State) (v : Word) : (s.writeInLen v).corr = s.corr := rfl
@[simp] theorem State.writeInLen_err (s : State) (v : Word) : (s.writeInLen v).err = s.err := rfl
@[simp] theorem State.writeInLen_errStage (s : State) (v : Word) : (s.writeInLen v).errStage = s.errStage := rfl
@[simp] theorem State.writeInLen_overrun (s : State) (v : Word) : (s.writeInLen v).overrun = s.overrun := rfl
@[simp] theorem State.writeInLen_diag (s : State) (v : Word) : (s.writeInLen v).diag = s.diag := rfl
@[simp] theorem State.writeInLen_config (s : State) (v : Word) : (s.writeInLen v).config = s.config := rfl
@[simp] theorem State.writeInLen_pads (s : State) (v : Word) : (s.writeInLen v).pads = s.pads := rfl
@[simp] theorem State.writeInLen_inLen (s : State) (v : Word) : (s.writeInLen v).inLen = lengthOfWord v := rfl
@[simp] theorem State.writeInLen_outLen (s : State) (v : Word) : (s.writeInLen v).outLen = s.outLen := rfl
@[simp] theorem State.writeInLen_syndrome (s : State) (v : Word) : (s.writeInLen v).syndrome = s.syndrome := rfl
@[simp] theorem State.writeInLen_crcValue (s : State) (v : Word) : (s.writeInLen v).crcValue = s.crcValue := rfl
@[simp] theorem State.writeInLen_csumValue (s : State) (v : Word) : (s.writeInLen v).csumValue = s.csumValue := rfl
@[simp] theorem State.writeInLen_trace0Len (s : State) (v : Word) : (s.writeInLen v).trace0Len = s.trace0Len := rfl
@[simp] theorem State.writeInLen_trace1Len (s : State) (v : Word) : (s.writeInLen v).trace1Len = s.trace1Len := rfl
@[simp] theorem State.writeInLen_trace2Len (s : State) (v : Word) : (s.writeInLen v).trace2Len = s.trace2Len := rfl
@[simp] theorem State.writeInLen_inBuf (s : State) (v : Word) : (s.writeInLen v).inBuf = s.inBuf := rfl
@[simp] theorem State.writeInLen_out (s : State) (v : Word) : (s.writeInLen v).out = s.out := rfl
@[simp] theorem State.writeInLen_trace0 (s : State) (v : Word) : (s.writeInLen v).trace0 = s.trace0 := rfl
@[simp] theorem State.writeInLen_trace1 (s : State) (v : Word) : (s.writeInLen v).trace1 = s.trace1 := rfl
@[simp] theorem State.writeInLen_trace2 (s : State) (v : Word) : (s.writeInLen v).trace2 = s.trace2 := rfl
@[simp] theorem State.writeInLen_waiting (s : State) (v : Word) : (s.writeInLen v).waiting = s.waiting := rfl
@[simp] theorem State.writeInLen_latencies (s : State) (v : Word) : (s.writeInLen v).latencies = s.latencies := rfl
@[simp] theorem State.writeInLen_inputs (s : State) (v : Word) : (s.writeInLen v).inputs = s.inputs := rfl
@[simp] theorem State.writeInLen_resp (s : State) (v : Word) : (s.writeInLen v).resp = s.resp := rfl
@[simp] theorem State.writeInLen_draws (s : State) (v : Word) : (s.writeInLen v).draws = s.draws := rfl

/-! ## `State.respond` -/

@[simp] theorem State.respond_params (s : State) (r : Response) : (s.respond r).params = s.params := rfl
@[simp] theorem State.respond_phase (s : State) (r : Response) : (s.respond r).phase = s.phase := rfl
@[simp] theorem State.respond_cmd (s : State) (r : Response) : (s.respond r).cmd = s.cmd := rfl
@[simp] theorem State.respond_done (s : State) (r : Response) : (s.respond r).done = s.done := rfl
@[simp] theorem State.respond_valid (s : State) (r : Response) : (s.respond r).valid = s.valid := rfl
@[simp] theorem State.respond_corr (s : State) (r : Response) : (s.respond r).corr = s.corr := rfl
@[simp] theorem State.respond_err (s : State) (r : Response) : (s.respond r).err = s.err := rfl
@[simp] theorem State.respond_errStage (s : State) (r : Response) : (s.respond r).errStage = s.errStage := rfl
@[simp] theorem State.respond_overrun (s : State) (r : Response) : (s.respond r).overrun = s.overrun := rfl
@[simp] theorem State.respond_diag (s : State) (r : Response) : (s.respond r).diag = s.diag := rfl
@[simp] theorem State.respond_config (s : State) (r : Response) : (s.respond r).config = s.config := rfl
@[simp] theorem State.respond_pads (s : State) (r : Response) : (s.respond r).pads = s.pads := rfl
@[simp] theorem State.respond_inLen (s : State) (r : Response) : (s.respond r).inLen = s.inLen := rfl
@[simp] theorem State.respond_outLen (s : State) (r : Response) : (s.respond r).outLen = s.outLen := rfl
@[simp] theorem State.respond_syndrome (s : State) (r : Response) : (s.respond r).syndrome = s.syndrome := rfl
@[simp] theorem State.respond_crcValue (s : State) (r : Response) : (s.respond r).crcValue = s.crcValue := rfl
@[simp] theorem State.respond_csumValue (s : State) (r : Response) : (s.respond r).csumValue = s.csumValue := rfl
@[simp] theorem State.respond_trace0Len (s : State) (r : Response) : (s.respond r).trace0Len = s.trace0Len := rfl
@[simp] theorem State.respond_trace1Len (s : State) (r : Response) : (s.respond r).trace1Len = s.trace1Len := rfl
@[simp] theorem State.respond_trace2Len (s : State) (r : Response) : (s.respond r).trace2Len = s.trace2Len := rfl
@[simp] theorem State.respond_inBuf (s : State) (r : Response) : (s.respond r).inBuf = s.inBuf := rfl
@[simp] theorem State.respond_out (s : State) (r : Response) : (s.respond r).out = s.out := rfl
@[simp] theorem State.respond_trace0 (s : State) (r : Response) : (s.respond r).trace0 = s.trace0 := rfl
@[simp] theorem State.respond_trace1 (s : State) (r : Response) : (s.respond r).trace1 = s.trace1 := rfl
@[simp] theorem State.respond_trace2 (s : State) (r : Response) : (s.respond r).trace2 = s.trace2 := rfl
@[simp] theorem State.respond_waiting (s : State) (r : Response) : (s.respond r).waiting = s.waiting := rfl
@[simp] theorem State.respond_latencies (s : State) (r : Response) : (s.respond r).latencies = s.latencies := rfl
@[simp] theorem State.respond_inputs (s : State) (r : Response) : (s.respond r).inputs = s.inputs := rfl
@[simp] theorem State.respond_resp (s : State) (r : Response) : (s.respond r).resp = r := rfl
@[simp] theorem State.respond_draws (s : State) (r : Response) : (s.respond r).draws = s.draws := rfl

/-! ## `State.withInputs` -/

@[simp] theorem State.withInputs_params (s : State) (rest : List Input) : (s.withInputs rest).params = s.params := rfl
@[simp] theorem State.withInputs_phase (s : State) (rest : List Input) : (s.withInputs rest).phase = s.phase := rfl
@[simp] theorem State.withInputs_cmd (s : State) (rest : List Input) : (s.withInputs rest).cmd = s.cmd := rfl
@[simp] theorem State.withInputs_done (s : State) (rest : List Input) : (s.withInputs rest).done = s.done := rfl
@[simp] theorem State.withInputs_valid (s : State) (rest : List Input) : (s.withInputs rest).valid = s.valid := rfl
@[simp] theorem State.withInputs_corr (s : State) (rest : List Input) : (s.withInputs rest).corr = s.corr := rfl
@[simp] theorem State.withInputs_err (s : State) (rest : List Input) : (s.withInputs rest).err = s.err := rfl
@[simp] theorem State.withInputs_errStage (s : State) (rest : List Input) : (s.withInputs rest).errStage = s.errStage := rfl
@[simp] theorem State.withInputs_overrun (s : State) (rest : List Input) : (s.withInputs rest).overrun = s.overrun := rfl
@[simp] theorem State.withInputs_diag (s : State) (rest : List Input) : (s.withInputs rest).diag = s.diag := rfl
@[simp] theorem State.withInputs_config (s : State) (rest : List Input) : (s.withInputs rest).config = s.config := rfl
@[simp] theorem State.withInputs_pads (s : State) (rest : List Input) : (s.withInputs rest).pads = s.pads := rfl
@[simp] theorem State.withInputs_inLen (s : State) (rest : List Input) : (s.withInputs rest).inLen = s.inLen := rfl
@[simp] theorem State.withInputs_outLen (s : State) (rest : List Input) : (s.withInputs rest).outLen = s.outLen := rfl
@[simp] theorem State.withInputs_syndrome (s : State) (rest : List Input) : (s.withInputs rest).syndrome = s.syndrome := rfl
@[simp] theorem State.withInputs_crcValue (s : State) (rest : List Input) : (s.withInputs rest).crcValue = s.crcValue := rfl
@[simp] theorem State.withInputs_csumValue (s : State) (rest : List Input) : (s.withInputs rest).csumValue = s.csumValue := rfl
@[simp] theorem State.withInputs_trace0Len (s : State) (rest : List Input) : (s.withInputs rest).trace0Len = s.trace0Len := rfl
@[simp] theorem State.withInputs_trace1Len (s : State) (rest : List Input) : (s.withInputs rest).trace1Len = s.trace1Len := rfl
@[simp] theorem State.withInputs_trace2Len (s : State) (rest : List Input) : (s.withInputs rest).trace2Len = s.trace2Len := rfl
@[simp] theorem State.withInputs_inBuf (s : State) (rest : List Input) : (s.withInputs rest).inBuf = s.inBuf := rfl
@[simp] theorem State.withInputs_out (s : State) (rest : List Input) : (s.withInputs rest).out = s.out := rfl
@[simp] theorem State.withInputs_trace0 (s : State) (rest : List Input) : (s.withInputs rest).trace0 = s.trace0 := rfl
@[simp] theorem State.withInputs_trace1 (s : State) (rest : List Input) : (s.withInputs rest).trace1 = s.trace1 := rfl
@[simp] theorem State.withInputs_trace2 (s : State) (rest : List Input) : (s.withInputs rest).trace2 = s.trace2 := rfl
@[simp] theorem State.withInputs_waiting (s : State) (rest : List Input) : (s.withInputs rest).waiting = s.waiting := rfl
@[simp] theorem State.withInputs_latencies (s : State) (rest : List Input) : (s.withInputs rest).latencies = s.latencies := rfl
@[simp] theorem State.withInputs_inputs (s : State) (rest : List Input) : (s.withInputs rest).inputs = rest := rfl
@[simp] theorem State.withInputs_resp (s : State) (rest : List Input) : (s.withInputs rest).resp = s.resp := rfl
@[simp] theorem State.withInputs_draws (s : State) (rest : List Input) : (s.withInputs rest).draws = s.draws := rfl

/-! ## `State.withWaiting` -/

@[simp] theorem State.withWaiting_params (s : State) (n : Nat) : (s.withWaiting n).params = s.params := rfl
@[simp] theorem State.withWaiting_phase (s : State) (n : Nat) : (s.withWaiting n).phase = s.phase := rfl
@[simp] theorem State.withWaiting_cmd (s : State) (n : Nat) : (s.withWaiting n).cmd = s.cmd := rfl
@[simp] theorem State.withWaiting_done (s : State) (n : Nat) : (s.withWaiting n).done = s.done := rfl
@[simp] theorem State.withWaiting_valid (s : State) (n : Nat) : (s.withWaiting n).valid = s.valid := rfl
@[simp] theorem State.withWaiting_corr (s : State) (n : Nat) : (s.withWaiting n).corr = s.corr := rfl
@[simp] theorem State.withWaiting_err (s : State) (n : Nat) : (s.withWaiting n).err = s.err := rfl
@[simp] theorem State.withWaiting_errStage (s : State) (n : Nat) : (s.withWaiting n).errStage = s.errStage := rfl
@[simp] theorem State.withWaiting_overrun (s : State) (n : Nat) : (s.withWaiting n).overrun = s.overrun := rfl
@[simp] theorem State.withWaiting_diag (s : State) (n : Nat) : (s.withWaiting n).diag = s.diag := rfl
@[simp] theorem State.withWaiting_config (s : State) (n : Nat) : (s.withWaiting n).config = s.config := rfl
@[simp] theorem State.withWaiting_pads (s : State) (n : Nat) : (s.withWaiting n).pads = s.pads := rfl
@[simp] theorem State.withWaiting_inLen (s : State) (n : Nat) : (s.withWaiting n).inLen = s.inLen := rfl
@[simp] theorem State.withWaiting_outLen (s : State) (n : Nat) : (s.withWaiting n).outLen = s.outLen := rfl
@[simp] theorem State.withWaiting_syndrome (s : State) (n : Nat) : (s.withWaiting n).syndrome = s.syndrome := rfl
@[simp] theorem State.withWaiting_crcValue (s : State) (n : Nat) : (s.withWaiting n).crcValue = s.crcValue := rfl
@[simp] theorem State.withWaiting_csumValue (s : State) (n : Nat) : (s.withWaiting n).csumValue = s.csumValue := rfl
@[simp] theorem State.withWaiting_trace0Len (s : State) (n : Nat) : (s.withWaiting n).trace0Len = s.trace0Len := rfl
@[simp] theorem State.withWaiting_trace1Len (s : State) (n : Nat) : (s.withWaiting n).trace1Len = s.trace1Len := rfl
@[simp] theorem State.withWaiting_trace2Len (s : State) (n : Nat) : (s.withWaiting n).trace2Len = s.trace2Len := rfl
@[simp] theorem State.withWaiting_inBuf (s : State) (n : Nat) : (s.withWaiting n).inBuf = s.inBuf := rfl
@[simp] theorem State.withWaiting_out (s : State) (n : Nat) : (s.withWaiting n).out = s.out := rfl
@[simp] theorem State.withWaiting_trace0 (s : State) (n : Nat) : (s.withWaiting n).trace0 = s.trace0 := rfl
@[simp] theorem State.withWaiting_trace1 (s : State) (n : Nat) : (s.withWaiting n).trace1 = s.trace1 := rfl
@[simp] theorem State.withWaiting_trace2 (s : State) (n : Nat) : (s.withWaiting n).trace2 = s.trace2 := rfl
@[simp] theorem State.withWaiting_waiting (s : State) (n : Nat) : (s.withWaiting n).waiting = n := rfl
@[simp] theorem State.withWaiting_latencies (s : State) (n : Nat) : (s.withWaiting n).latencies = s.latencies := rfl
@[simp] theorem State.withWaiting_inputs (s : State) (n : Nat) : (s.withWaiting n).inputs = s.inputs := rfl
@[simp] theorem State.withWaiting_resp (s : State) (n : Nat) : (s.withWaiting n).resp = s.resp := rfl
@[simp] theorem State.withWaiting_draws (s : State) (n : Nat) : (s.withWaiting n).draws = s.draws := rfl

/-! ## `State.countDraw` -/

@[simp] theorem State.countDraw_params (s : State) : (s.countDraw).params = s.params := rfl
@[simp] theorem State.countDraw_phase (s : State) : (s.countDraw).phase = s.phase := rfl
@[simp] theorem State.countDraw_cmd (s : State) : (s.countDraw).cmd = s.cmd := rfl
@[simp] theorem State.countDraw_done (s : State) : (s.countDraw).done = s.done := rfl
@[simp] theorem State.countDraw_valid (s : State) : (s.countDraw).valid = s.valid := rfl
@[simp] theorem State.countDraw_corr (s : State) : (s.countDraw).corr = s.corr := rfl
@[simp] theorem State.countDraw_err (s : State) : (s.countDraw).err = s.err := rfl
@[simp] theorem State.countDraw_errStage (s : State) : (s.countDraw).errStage = s.errStage := rfl
@[simp] theorem State.countDraw_overrun (s : State) : (s.countDraw).overrun = s.overrun := rfl
@[simp] theorem State.countDraw_diag (s : State) : (s.countDraw).diag = s.diag := rfl
@[simp] theorem State.countDraw_config (s : State) : (s.countDraw).config = s.config := rfl
@[simp] theorem State.countDraw_pads (s : State) : (s.countDraw).pads = s.pads := rfl
@[simp] theorem State.countDraw_inLen (s : State) : (s.countDraw).inLen = s.inLen := rfl
@[simp] theorem State.countDraw_outLen (s : State) : (s.countDraw).outLen = s.outLen := rfl
@[simp] theorem State.countDraw_syndrome (s : State) : (s.countDraw).syndrome = s.syndrome := rfl
@[simp] theorem State.countDraw_crcValue (s : State) : (s.countDraw).crcValue = s.crcValue := rfl
@[simp] theorem State.countDraw_csumValue (s : State) : (s.countDraw).csumValue = s.csumValue := rfl
@[simp] theorem State.countDraw_trace0Len (s : State) : (s.countDraw).trace0Len = s.trace0Len := rfl
@[simp] theorem State.countDraw_trace1Len (s : State) : (s.countDraw).trace1Len = s.trace1Len := rfl
@[simp] theorem State.countDraw_trace2Len (s : State) : (s.countDraw).trace2Len = s.trace2Len := rfl
@[simp] theorem State.countDraw_inBuf (s : State) : (s.countDraw).inBuf = s.inBuf := rfl
@[simp] theorem State.countDraw_out (s : State) : (s.countDraw).out = s.out := rfl
@[simp] theorem State.countDraw_trace0 (s : State) : (s.countDraw).trace0 = s.trace0 := rfl
@[simp] theorem State.countDraw_trace1 (s : State) : (s.countDraw).trace1 = s.trace1 := rfl
@[simp] theorem State.countDraw_trace2 (s : State) : (s.countDraw).trace2 = s.trace2 := rfl
@[simp] theorem State.countDraw_waiting (s : State) : (s.countDraw).waiting = s.waiting := rfl
@[simp] theorem State.countDraw_latencies (s : State) : (s.countDraw).latencies = s.latencies := rfl
@[simp] theorem State.countDraw_inputs (s : State) : (s.countDraw).inputs = s.inputs := rfl
@[simp] theorem State.countDraw_resp (s : State) : (s.countDraw).resp = s.resp := rfl
@[simp] theorem State.countDraw_draws (s : State) : (s.countDraw).draws = s.draws + 1 := rfl

/-! ## `State.writeTraces` -/

@[simp] theorem State.writeTraces_params (s : State) (l : List Bits) : (s.writeTraces l).params = s.params := rfl
@[simp] theorem State.writeTraces_phase (s : State) (l : List Bits) : (s.writeTraces l).phase = s.phase := rfl
@[simp] theorem State.writeTraces_cmd (s : State) (l : List Bits) : (s.writeTraces l).cmd = s.cmd := rfl
@[simp] theorem State.writeTraces_done (s : State) (l : List Bits) : (s.writeTraces l).done = s.done := rfl
@[simp] theorem State.writeTraces_valid (s : State) (l : List Bits) : (s.writeTraces l).valid = s.valid := rfl
@[simp] theorem State.writeTraces_corr (s : State) (l : List Bits) : (s.writeTraces l).corr = s.corr := rfl
@[simp] theorem State.writeTraces_err (s : State) (l : List Bits) : (s.writeTraces l).err = s.err := rfl
@[simp] theorem State.writeTraces_errStage (s : State) (l : List Bits) : (s.writeTraces l).errStage = s.errStage := rfl
@[simp] theorem State.writeTraces_overrun (s : State) (l : List Bits) : (s.writeTraces l).overrun = s.overrun := rfl
@[simp] theorem State.writeTraces_diag (s : State) (l : List Bits) : (s.writeTraces l).diag = s.diag := rfl
@[simp] theorem State.writeTraces_config (s : State) (l : List Bits) : (s.writeTraces l).config = s.config := rfl
@[simp] theorem State.writeTraces_pads (s : State) (l : List Bits) : (s.writeTraces l).pads = s.pads := rfl
@[simp] theorem State.writeTraces_inLen (s : State) (l : List Bits) : (s.writeTraces l).inLen = s.inLen := rfl
@[simp] theorem State.writeTraces_outLen (s : State) (l : List Bits) : (s.writeTraces l).outLen = s.outLen := rfl
@[simp] theorem State.writeTraces_syndrome (s : State) (l : List Bits) : (s.writeTraces l).syndrome = s.syndrome := rfl
@[simp] theorem State.writeTraces_crcValue (s : State) (l : List Bits) : (s.writeTraces l).crcValue = s.crcValue := rfl
@[simp] theorem State.writeTraces_csumValue (s : State) (l : List Bits) : (s.writeTraces l).csumValue = s.csumValue := rfl
@[simp] theorem State.writeTraces_inBuf (s : State) (l : List Bits) : (s.writeTraces l).inBuf = s.inBuf := rfl
@[simp] theorem State.writeTraces_out (s : State) (l : List Bits) : (s.writeTraces l).out = s.out := rfl
@[simp] theorem State.writeTraces_waiting (s : State) (l : List Bits) : (s.writeTraces l).waiting = s.waiting := rfl
@[simp] theorem State.writeTraces_latencies (s : State) (l : List Bits) : (s.writeTraces l).latencies = s.latencies := rfl
@[simp] theorem State.writeTraces_inputs (s : State) (l : List Bits) : (s.writeTraces l).inputs = s.inputs := rfl
@[simp] theorem State.writeTraces_resp (s : State) (l : List Bits) : (s.writeTraces l).resp = s.resp := rfl
@[simp] theorem State.writeTraces_draws (s : State) (l : List Bits) : (s.writeTraces l).draws = s.draws := rfl
@[simp] theorem State.writeTraces_trace0 (s : State) (l : List Bits) :
    (s.writeTraces l).trace0 = (traceAfter s.trace0 (if s.config.traceEn then l else [])[0]?).1 := rfl
@[simp] theorem State.writeTraces_trace0Len (s : State) (l : List Bits) :
    (s.writeTraces l).trace0Len = (traceAfter s.trace0 (if s.config.traceEn then l else [])[0]?).2 := rfl
@[simp] theorem State.writeTraces_trace1 (s : State) (l : List Bits) :
    (s.writeTraces l).trace1 = (traceAfter s.trace1 (if s.config.traceEn then l else [])[1]?).1 := rfl
@[simp] theorem State.writeTraces_trace1Len (s : State) (l : List Bits) :
    (s.writeTraces l).trace1Len = (traceAfter s.trace1 (if s.config.traceEn then l else [])[1]?).2 := rfl
@[simp] theorem State.writeTraces_trace2 (s : State) (l : List Bits) :
    (s.writeTraces l).trace2 = (traceAfter s.trace2 (if s.config.traceEn then l else [])[2]?).1 := rfl
@[simp] theorem State.writeTraces_trace2Len (s : State) (l : List Bits) :
    (s.writeTraces l).trace2Len = (traceAfter s.trace2 (if s.config.traceEn then l else [])[2]?).2 := rfl

/-! ## `State.writeInWord` -/

@[simp] theorem State.writeInWord_params (s : State) (k : Nat) (v : Word) : (s.writeInWord k v).params = s.params := by
  unfold State.writeInWord; split <;> rfl
@[simp] theorem State.writeInWord_phase (s : State) (k : Nat) (v : Word) : (s.writeInWord k v).phase = s.phase := by
  unfold State.writeInWord; split <;> rfl
@[simp] theorem State.writeInWord_cmd (s : State) (k : Nat) (v : Word) : (s.writeInWord k v).cmd = s.cmd := by
  unfold State.writeInWord; split <;> rfl
@[simp] theorem State.writeInWord_done (s : State) (k : Nat) (v : Word) : (s.writeInWord k v).done = s.done := by
  unfold State.writeInWord; split <;> rfl
@[simp] theorem State.writeInWord_valid (s : State) (k : Nat) (v : Word) : (s.writeInWord k v).valid = s.valid := by
  unfold State.writeInWord; split <;> rfl
@[simp] theorem State.writeInWord_corr (s : State) (k : Nat) (v : Word) : (s.writeInWord k v).corr = s.corr := by
  unfold State.writeInWord; split <;> rfl
@[simp] theorem State.writeInWord_err (s : State) (k : Nat) (v : Word) : (s.writeInWord k v).err = s.err := by
  unfold State.writeInWord; split <;> rfl
@[simp] theorem State.writeInWord_errStage (s : State) (k : Nat) (v : Word) : (s.writeInWord k v).errStage = s.errStage := by
  unfold State.writeInWord; split <;> rfl
@[simp] theorem State.writeInWord_overrun (s : State) (k : Nat) (v : Word) : (s.writeInWord k v).overrun = s.overrun := by
  unfold State.writeInWord; split <;> rfl
@[simp] theorem State.writeInWord_diag (s : State) (k : Nat) (v : Word) : (s.writeInWord k v).diag = s.diag := by
  unfold State.writeInWord; split <;> rfl
@[simp] theorem State.writeInWord_config (s : State) (k : Nat) (v : Word) : (s.writeInWord k v).config = s.config := by
  unfold State.writeInWord; split <;> rfl
@[simp] theorem State.writeInWord_pads (s : State) (k : Nat) (v : Word) : (s.writeInWord k v).pads = s.pads := by
  unfold State.writeInWord; split <;> rfl
@[simp] theorem State.writeInWord_inLen (s : State) (k : Nat) (v : Word) : (s.writeInWord k v).inLen = s.inLen := by
  unfold State.writeInWord; split <;> rfl
@[simp] theorem State.writeInWord_outLen (s : State) (k : Nat) (v : Word) : (s.writeInWord k v).outLen = s.outLen := by
  unfold State.writeInWord; split <;> rfl
@[simp] theorem State.writeInWord_syndrome (s : State) (k : Nat) (v : Word) : (s.writeInWord k v).syndrome = s.syndrome := by
  unfold State.writeInWord; split <;> rfl
@[simp] theorem State.writeInWord_crcValue (s : State) (k : Nat) (v : Word) : (s.writeInWord k v).crcValue = s.crcValue := by
  unfold State.writeInWord; split <;> rfl
@[simp] theorem State.writeInWord_csumValue (s : State) (k : Nat) (v : Word) : (s.writeInWord k v).csumValue = s.csumValue := by
  unfold State.writeInWord; split <;> rfl
@[simp] theorem State.writeInWord_trace0Len (s : State) (k : Nat) (v : Word) : (s.writeInWord k v).trace0Len = s.trace0Len := by
  unfold State.writeInWord; split <;> rfl
@[simp] theorem State.writeInWord_trace1Len (s : State) (k : Nat) (v : Word) : (s.writeInWord k v).trace1Len = s.trace1Len := by
  unfold State.writeInWord; split <;> rfl
@[simp] theorem State.writeInWord_trace2Len (s : State) (k : Nat) (v : Word) : (s.writeInWord k v).trace2Len = s.trace2Len := by
  unfold State.writeInWord; split <;> rfl
@[simp] theorem State.writeInWord_inBuf (s : State) (k : Nat) (v : Word) :
    (s.writeInWord k v).inBuf = if k < s.params.maxInBits / 32 then s.inBuf.write (32 * k) (bitsOf v) else s.inBuf := by
  unfold State.writeInWord; split <;> rfl
@[simp] theorem State.writeInWord_out (s : State) (k : Nat) (v : Word) : (s.writeInWord k v).out = s.out := by
  unfold State.writeInWord; split <;> rfl
@[simp] theorem State.writeInWord_trace0 (s : State) (k : Nat) (v : Word) : (s.writeInWord k v).trace0 = s.trace0 := by
  unfold State.writeInWord; split <;> rfl
@[simp] theorem State.writeInWord_trace1 (s : State) (k : Nat) (v : Word) : (s.writeInWord k v).trace1 = s.trace1 := by
  unfold State.writeInWord; split <;> rfl
@[simp] theorem State.writeInWord_trace2 (s : State) (k : Nat) (v : Word) : (s.writeInWord k v).trace2 = s.trace2 := by
  unfold State.writeInWord; split <;> rfl
@[simp] theorem State.writeInWord_waiting (s : State) (k : Nat) (v : Word) : (s.writeInWord k v).waiting = s.waiting := by
  unfold State.writeInWord; split <;> rfl
@[simp] theorem State.writeInWord_latencies (s : State) (k : Nat) (v : Word) : (s.writeInWord k v).latencies = s.latencies := by
  unfold State.writeInWord; split <;> rfl
@[simp] theorem State.writeInWord_inputs (s : State) (k : Nat) (v : Word) : (s.writeInWord k v).inputs = s.inputs := by
  unfold State.writeInWord; split <;> rfl
@[simp] theorem State.writeInWord_resp (s : State) (k : Nat) (v : Word) : (s.writeInWord k v).resp = s.resp := by
  unfold State.writeInWord; split <;> rfl
@[simp] theorem State.writeInWord_draws (s : State) (k : Nat) (v : Word) : (s.writeInWord k v).draws = s.draws := by
  unfold State.writeInWord; split <;> rfl

/-! ## Reset -/

@[simp] theorem State.resetWith_params (p : Params) (l : List Nat) (ins : List Input) (d : Nat) :
    (State.resetWith p l ins d).params = p := rfl
@[simp] theorem State.resetWith_phase (p : Params) (l : List Nat) (ins : List Input) (d : Nat) :
    (State.resetWith p l ins d).phase = .idle := rfl
@[simp] theorem State.resetWith_cmd (p : Params) (l : List Nat) (ins : List Input) (d : Nat) :
    (State.resetWith p l ins d).cmd = 0 := rfl
@[simp] theorem State.resetWith_done (p : Params) (l : List Nat) (ins : List Input) (d : Nat) :
    (State.resetWith p l ins d).done = false := rfl
@[simp] theorem State.resetWith_valid (p : Params) (l : List Nat) (ins : List Input) (d : Nat) :
    (State.resetWith p l ins d).valid = false := rfl
@[simp] theorem State.resetWith_corr (p : Params) (l : List Nat) (ins : List Input) (d : Nat) :
    (State.resetWith p l ins d).corr = .clean := rfl
@[simp] theorem State.resetWith_err (p : Params) (l : List Nat) (ins : List Input) (d : Nat) :
    (State.resetWith p l ins d).err = none := rfl
@[simp] theorem State.resetWith_errStage (p : Params) (l : List Nat) (ins : List Input) (d : Nat) :
    (State.resetWith p l ins d).errStage = none := rfl
@[simp] theorem State.resetWith_overrun (p : Params) (l : List Nat) (ins : List Input) (d : Nat) :
    (State.resetWith p l ins d).overrun = false := rfl
@[simp] theorem State.resetWith_diag (p : Params) (l : List Nat) (ins : List Input) (d : Nat) :
    (State.resetWith p l ins d).diag = {} := rfl
@[simp] theorem State.resetWith_config (p : Params) (l : List Nat) (ins : List Input) (d : Nat) :
    (State.resetWith p l ins d).config = { framing := 0, correction := 0, detection := 0, traceEn := false } := rfl
@[simp] theorem State.resetWith_pads (p : Params) (l : List Nat) (ins : List Input) (d : Nat) :
    (State.resetWith p l ins d).pads = { parityPad := 7, crcPad := 64 } := rfl
@[simp] theorem State.resetWith_inLen (p : Params) (l : List Nat) (ins : List Input) (d : Nat) :
    (State.resetWith p l ins d).inLen = 0 := rfl
@[simp] theorem State.resetWith_outLen (p : Params) (l : List Nat) (ins : List Input) (d : Nat) :
    (State.resetWith p l ins d).outLen = 0 := rfl
@[simp] theorem State.resetWith_syndrome (p : Params) (l : List Nat) (ins : List Input) (d : Nat) :
    (State.resetWith p l ins d).syndrome = 0 := rfl
@[simp] theorem State.resetWith_crcValue (p : Params) (l : List Nat) (ins : List Input) (d : Nat) :
    (State.resetWith p l ins d).crcValue = 0 := rfl
@[simp] theorem State.resetWith_csumValue (p : Params) (l : List Nat) (ins : List Input) (d : Nat) :
    (State.resetWith p l ins d).csumValue = 0 := rfl
@[simp] theorem State.resetWith_trace0Len (p : Params) (l : List Nat) (ins : List Input) (d : Nat) :
    (State.resetWith p l ins d).trace0Len = 0 := rfl
@[simp] theorem State.resetWith_trace1Len (p : Params) (l : List Nat) (ins : List Input) (d : Nat) :
    (State.resetWith p l ins d).trace1Len = 0 := rfl
@[simp] theorem State.resetWith_trace2Len (p : Params) (l : List Nat) (ins : List Input) (d : Nat) :
    (State.resetWith p l ins d).trace2Len = 0 := rfl
@[simp] theorem State.resetWith_inBuf (p : Params) (l : List Nat) (ins : List Input) (d : Nat) :
    (State.resetWith p l ins d).inBuf = [] := rfl
@[simp] theorem State.resetWith_out (p : Params) (l : List Nat) (ins : List Input) (d : Nat) :
    (State.resetWith p l ins d).out = [] := rfl
@[simp] theorem State.resetWith_trace0 (p : Params) (l : List Nat) (ins : List Input) (d : Nat) :
    (State.resetWith p l ins d).trace0 = [] := rfl
@[simp] theorem State.resetWith_trace1 (p : Params) (l : List Nat) (ins : List Input) (d : Nat) :
    (State.resetWith p l ins d).trace1 = [] := rfl
@[simp] theorem State.resetWith_trace2 (p : Params) (l : List Nat) (ins : List Input) (d : Nat) :
    (State.resetWith p l ins d).trace2 = [] := rfl
@[simp] theorem State.resetWith_waiting (p : Params) (l : List Nat) (ins : List Input) (d : Nat) :
    (State.resetWith p l ins d).waiting = 0 := rfl
@[simp] theorem State.resetWith_latencies (p : Params) (l : List Nat) (ins : List Input) (d : Nat) :
    (State.resetWith p l ins d).latencies = l := rfl
@[simp] theorem State.resetWith_inputs (p : Params) (l : List Nat) (ins : List Input) (d : Nat) :
    (State.resetWith p l ins d).inputs = ins := rfl
@[simp] theorem State.resetWith_resp (p : Params) (l : List Nat) (ins : List Input) (d : Nat) :
    (State.resetWith p l ins d).resp = .none := rfl
@[simp] theorem State.resetWith_draws (p : Params) (l : List Nat) (ins : List Input) (d : Nat) :
    (State.resetWith p l ins d).draws = d := rfl

theorem State.assertReset_eq (s : State) : s.assertReset = State.resetWith s.params s.latencies s.inputs s.draws := rfl

end Sys2Proof.Machine
end

