-- ==== Sys2Proof/Laws/Bus.lean ====
section
/-! SUPPORT. What a host step can do, said once: the offset an access names, the three answers of `hostAccess`, and `serve`. -/

namespace Sys2Proof.Machine

/-- An aligned 32-bit access in the aperture names its offset (R49, R50). -/
theorem busOffset_ok (p : Params) (off : Nat) (hb : p.blockBase % 4 = 0) (ho : off < apertureBytes) (ha : off % 4 = 0) :
    busOffset p (p.blockBase + off) 4 = .ok off := by
  unfold busOffset
  rw [if_neg (by omega), if_neg (by omega)]
  congr
  omega

theorem busOffset_outside (p : Params) (addr width : Nat)
    (h : addr < p.blockBase ∨ p.blockBase + apertureBytes ≤ addr) : busOffset p addr width = .error .outsideAperture := by
  rw [busOffset, if_pos h]

theorem busOffset_refused (p : Params) (addr width : Nat) (h : p.blockBase ≤ addr ∧ addr < p.blockBase + apertureBytes)
    (hw : width ≠ 4 ∨ addr % 4 ≠ 0) : busOffset p addr width = .error .busRefused := by
  rw [busOffset, if_neg (by omega), if_pos hw]

/-- Every host step is taken, and what it can be: a read, a write, a failed access or a reset. -/
theorem serve_cases (s : State) (i : Input) :
    ∃ t, serve s i = .next t ∧
      ((∃ f, t = s.respond (.failed f)) ∨ (∃ w, t = s.countDraw.respond (.data w)) ∨
        (∃ v tgt, t = (s.writeTarget v tgt).respond .ack) ∨ (i = .reset ∧ t = s.assertReset)) := by
  unfold serve
  cases i with
  | read addr width =>
    simp only [hostAccess]
    cases busOffset s.params addr width with
    | error f => exact ⟨_, rfl, .inl ⟨f, rfl⟩⟩
    | ok off => exact ⟨_, rfl, .inr (.inl ⟨_, rfl⟩)⟩
  | write addr width v =>
    simp only [hostAccess]
    cases busOffset s.params addr width with
    | error f => exact ⟨_, rfl, .inl ⟨f, rfl⟩⟩
    | ok off => exact ⟨_, rfl, .inr (.inr (.inl ⟨v, _, rfl⟩))⟩
  | reset => exact ⟨_, rfl, .inr (.inr (.inr ⟨rfl, rfl⟩))⟩

theorem State.whenIdle_idle {s : State} (h : s.phase = .idle) (w : State → State) : s.whenIdle w = w s := by
  simp [State.whenIdle, h]

theorem State.whenIdle_busy {s : State} (h : s.phase = .busy) (w : State → State) : s.whenIdle w = s.setOverrun := by
  simp [State.whenIdle, h]

/-- What a host write can do to the block: nothing, set OVERRUN, clear it, or one of the five writes of an IDLE block. -/
theorem State.writeTarget_cases (s : State) (v : Word) (tgt : Target) :
    s.writeTarget v tgt = s ∨ s.writeTarget v tgt = s.writeStatus v ∨
      (s.phase = .busy ∧ s.writeTarget v tgt = s.setOverrun) ∨
      (s.phase = .idle ∧ (s.writeTarget v tgt = s.accept v ∨ s.writeTarget v tgt = s.writeConfig v ∨
        s.writeTarget v tgt = s.writePads v ∨ s.writeTarget v tgt = s.writeInLen v ∨
        ∃ k, s.writeTarget v tgt = s.writeInWord k v)) := by
  rcases h : s.phase with _ | _ <;> cases tgt <;> simp [State.writeTarget, State.whenIdle, h]
  exact .inr (.inr (.inr (.inr (.inr (.inr ⟨_, rfl⟩)))))

/-- Bit j of word k of a window, bit `31 - j` of the word (R52): the buffer's bit where it is shown, else any value (R40). -/
theorem windowWord_bit (m : BitMem) (shown : Nat → Bool) (draw k j : Nat) (hj : j < 32) :
    (windowWord m shown draw k).getLsbD (31 - j) =
      if shown (32 * k + j) then m.look draw (32 * k + j) else Config.anyBit draw (32 * k + j) := by
  have h := wordOfBits_getMsbD ((List.range 32).map fun j =>
    if shown (32 * k + j) then m.look draw (32 * k + j) else Config.anyBit draw (32 * k + j)) (by simp) j hj
  rw [BitVec.getMsbD_eq_getLsbD] at h
  simpa [hj, windowWord] using h

end Sys2Proof.Machine
end

