-- ==== Sys2Proof/Laws/Engines.lean ====
section
/-! SUPPORT. What an engine can answer, said once: the lengths of the outputs, and the two outcomes of `cc_enc`. -/

namespace Sys2Proof.Machine

/-- `cc_enc` of at most 255 octets (R79). -/
theorem ccEnc_ok {x : Bits} (h : (padLeft8 x).length / 8 ≤ 255) :
    ccEnc x = .ok { out := bitsOf (BitVec.ofNat 8 ((padLeft8 x).length / 8)) ++ padLeft8 x } := by
  have h' : ¬ CC_MAX < (padLeft8 x).length / 8 := Nat.not_lt.mpr h
  simp only [ccEnc]
  rw [if_neg h']

/-- `cc_enc` of more (R79). -/
theorem ccEnc_large {x : Bits} (h : 255 < (padLeft8 x).length / 8) : ccEnc x = .error .frameTooLarge := by
  have h' : CC_MAX < (padLeft8 x).length / 8 := h
  simp only [ccEnc]
  rw [if_pos h']

theorem length_placeData (j n : Nat) (x : Bits) : (placeData j n x).length = n := by
  induction n generalizing j x with
  | zero => simp [placeData]
  | succ n ih => rw [placeData]; split <;> simp [ih]

/-- The codeword length n = r + m (R94, R95). -/
theorem hamEnc_length (x : Bits) : ∃ r, hamEnc x = .ok r ∧ r.out.length = parityCount x.length + x.length :=
  ⟨_, rfl, by simp [length_placeData]⟩

theorem parEnc_length (x : Bits) : ∃ r, parEnc x = .ok r ∧ r.out.length = x.length + 1 := ⟨_, rfl, by simp⟩

theorem length_dataBits_le (w : Bits) : (dataBits w).length ≤ w.length := by
  have h := List.length_filter_le (fun e : Bool × Nat => !isPow2 e.2) (w.zipIdx 1)
  rw [List.length_zipIdx] at h
  rw [dataBits, List.length_map]
  exact h

/-- `ham_dec` never raises, and its output is no longer than its input (R102). -/
theorem hamDec_length_le (y : Bits) : ∃ r, hamDec y = .ok r ∧ r.out.length ≤ y.length := by
  simp only [hamDec]
  split
  · exact ⟨_, rfl, length_dataBits_le y⟩
  · split
    · exact ⟨_, rfl, (length_dataBits_le _).trans (by simp [flipPosition])⟩
    · exact ⟨_, rfl, length_dataBits_le y⟩

/-- What `crc_rx` answers: it never raises, checks the whole string, and strips where it can (R98). -/
theorem crcRx_eq (Q : Nat) (y : Bits) :
    crcRx Q y = .ok (if y.length < CRC_LEN + Q then { valid := crcRem (val y) == 0, diag := { short := true } }
      else { out := y.take (y.length - CRC_LEN - Q), valid := crcRem (val y) == 0 }) := by
  simp only [crcRx, crcVer, crcStrip, bind, Except.bind, pure, Except.pure]
  by_cases h : y.length < CRC_LEN + Q
  · simp only [if_pos h]
  · simp only [if_neg h, slice, List.drop_zero]

end Sys2Proof.Machine
end

