-- ==== Sys2Proof/Laws/Ops.lean ====
section
/-! SUPPORT. What each shared operation can do, said once: the abort record, a unit command's result, a completion, the traces. -/

namespace Sys2Proof.Machine

theorem Res.abort_eq (e : HardError) (stage : Option Stage) (diag : Diag) :
    Res.abort e stage diag = { err := some e, errStage := stage, diag := diag } := rfl

@[simp] theorem Res.abort_out (e : HardError) (stage : Option Stage) (diag : Diag) : (Res.abort e stage diag).out = [] := rfl

/-- The output check keeps a record that fits and replaces any other by the CAPACITY abort with the record's flags. -/
theorem guardOutput_of_no_error (p : Params) (r : Res) (h : r.err = none) :
    guardOutput p r = withinCapacityWith r.diag p r := by
  unfold guardOutput withinCapacityWith
  by_cases hl : p.maxOutBits < r.out.length
  · rw [if_pos ⟨h, hl⟩, if_neg (by omega), Res.abort_eq]
  · rw [if_neg (by simp [hl]), if_pos (by omega)]

theorem guardOutput_of_error (p : Params) (r : Res) (h : r.err ≠ none) : guardOutput p r = r := by
  simp [guardOutput, h]

/-- A unit command whose input exceeds IN ends in CAPACITY before its engine runs (R109). -/
theorem unitResult_input_capacity (s : State) (engine : Engine) (h : s.params.maxInBits < s.inLen.toNat) :
    unitResult s engine = { err := some .capacity } := by
  rw [unitResult, if_pos h, Res.abort_eq]

/-- A unit command whose engine raises `e` ends in `e`, with ERR_STAGE 0 (R108). -/
theorem unitResult_error (s : State) (engine : Engine) {e : HardError} (hl : s.inLen.toNat ≤ s.params.maxInBits)
    (h : engine s.inString = .error e) : unitResult s engine = { err := some e } := by
  rw [unitResult, if_neg (by omega), h]
  rfl

/-- A unit command whose engine gives a record ends with it, or in CAPACITY where it does not fit OUT (R75). -/
theorem unitResult_ok (s : State) (engine : Engine) {r : Res} (hl : s.inLen.toNat ≤ s.params.maxInBits)
    (h : engine s.inString = .ok r) (hr : r.err = none) :
    unitResult s engine = withinCapacityWith r.diag s.params r := by
  rw [unitResult, if_neg (by omega), h]
  exact guardOutput_of_no_error _ _ hr

/-- A completion publishes its record, where the record's numbers fit their registers. -/
theorem State.complete_publishes (s : State) (r : Res) (hout : r.out.length < 2 ^ 20) (hsyn : r.syndrome < 2 ^ 20) :
    (s.complete r).publishes r := by
  refine ⟨⟨rfl, rfl, rfl, rfl, rfl, rfl, rfl, ?_, rfl, rfl⟩, ?_, fun i h => ?_⟩
  · simpa using Nat.mod_eq_of_lt hsyn
  · simpa using Nat.mod_eq_of_lt hout
  · simpa using BitMem.get_write_inside s.out 0 r.out i h

/-- A completion leaves every bit of OUT past the new string alone. -/
theorem State.complete_keeps_beyond (s : State) (r : Res) (i : Nat) (h : r.out.length ≤ i) :
    (s.complete r).out.get i = s.out.get i := by
  simpa using BitMem.get_write_outside s.out 0 r.out i (by omega)

/-- A completion writes the result registers, OUT and OUT_LEN, and nothing else of the block (R42). -/
theorem State.complete_frame (s : State) (r : Res) :
    s.keepsOperands (s.complete r) ∧ s.keepsTraces (s.complete r) ∧ s.keepsRest (s.complete r) := by
  refine ⟨⟨rfl, rfl, rfl, rfl, rfl⟩, ⟨rfl, rfl, rfl, rfl, rfl, rfl⟩, ⟨rfl, rfl, rfl, rfl, rfl⟩⟩

/-- A recorded trace shows its string; any other has length 0 (R104). -/
theorem traceAfter_shows (m : BitMem) (recorded : Option Bits) (h : ∀ x, recorded = some x → x.length < 2 ^ 20) :
    showsTrace (traceAfter m recorded).1 (traceAfter m recorded).2 recorded := by
  cases recorded with
  | none => rfl
  | some x =>
    refine ⟨?_, fun i hi => ?_⟩
    · simpa [traceAfter] using Nat.mod_eq_of_lt (h x rfl)
    · simpa [traceAfter] using BitMem.get_write_inside m 0 x i hi

/-- The completion of a pipeline command, as one completion with a record and the traces of a list of stages. -/
theorem State.completePipe_eq (s : State) (rule : Bits → PipeOutcome) :
    s.completePipe rule =
      if s.params.maxInBits < s.inLen.toNat then (s.complete (Res.abort .capacity none {})).writeTraces []
      else (s.complete (guardOutput s.params (rule s.inString).res)).writeTraces (rule s.inString).stages := rfl

/-- The operand of a command is the stored string, where every bit of it is written (R44). -/
theorem State.inString_of_holdsIn {s : State} {x : Bits} (h : s.holdsIn x) : s.inString = x := by
  rw [State.inString, h.1]
  exact BitMem.read_of_get h.2 _

/-- XFER's operand is the stored string, where every bit of it is written (R78). -/
theorem State.outString_of_showsOut {s : State} {x : Bits} (h : s.showsOut x) : s.outString = x := by
  rw [State.outString, h.1]
  exact BitMem.read_of_get h.2 _

@[simp] theorem State.inString_length (s : State) : s.inString.length = s.inLen.toNat := by simp [State.inString]

@[simp] theorem State.outString_length (s : State) : s.outString.length = s.outLen.toNat := by simp [State.outString]

/-- The output check writes the flags the engine raised, whether or not the output fits (R29; log 18). -/
theorem guardOutput_diag (p : Params) (r : Res) : (guardOutput p r).diag = r.diag := by
  unfold guardOutput
  split <;> rfl

/-- For an engine that raises no flag the two forms of the CAPACITY abort agree. -/
theorem withinCapacityWith_of_no_flags (p : Params) (r : Res) (h : r.diag = {}) :
    withinCapacityWith r.diag p r = withinCapacity p r := by
  rw [h]

/-- A state that publishes a record or the CAPACITY abort does so with its own DIAG in the abort. -/
theorem State.publishes_withinCapacityWith {t : State} {p : Params} {r : Res} {d : Diag}
    (h : t.publishes (withinCapacityWith d p r)) : t.publishes (withinCapacityWith t.diag p r) := by
  by_cases hl : r.out.length ≤ p.maxOutBits
  · simpa only [withinCapacityWith, if_pos hl] using h
  · simp only [withinCapacityWith, if_neg hl] at h ⊢
    exact ⟨⟨h.1.1, h.1.2.1, h.1.2.2.1, h.1.2.2.2.1, h.1.2.2.2.2.1, h.1.2.2.2.2.2.1, rfl, h.1.2.2.2.2.2.2.2⟩, h.2⟩

/-- At most seven right-pad bits reach the framing decoder (R15, R105). -/
theorem padReachingFraming_le (k : Correction) (n : Nat) : Pseudocode.padReachingFraming k n ≤ 7 := by
  cases k with
  | none => simp only [Pseudocode.padReachingFraming]; omega
  | hamming =>
    refine (List.countP_le_length).trans ?_
    rw [List.length_range]
    omega

end Sys2Proof.Machine
end

