-- ==== Sys2Proof/Laws/PerInstr.lean ====
section
/-! SUPPORT. Statements about every command as syntax, one lemma for each constructor. -/

namespace Sys2Proof.Laws.FormatC

/-- The command keeps format C (R70): it is well-formed, its word's bits 31:8 are 0 and its bits 7:0 are its opcode. -/
def Statement (i : Instr) : Prop :=
  i.wellFormed = true ∧ commandReservedZero (encode i) ∧ opcodeField (encode i) = i.opcode

theorem xfer : Statement .xfer := ⟨rfl, by decide, by decide⟩

theorem ccEnc : Statement .ccEnc := ⟨rfl, by decide, by decide⟩

theorem ccDec : Statement .ccDec := ⟨rfl, by decide, by decide⟩

theorem byteEnc : Statement .byteEnc := ⟨rfl, by decide, by decide⟩

theorem byteDec : Statement .byteDec := ⟨rfl, by decide, by decide⟩

theorem bitEnc : Statement .bitEnc := ⟨rfl, by decide, by decide⟩

theorem bitDec : Statement .bitDec := ⟨rfl, by decide, by decide⟩

theorem parEnc : Statement .parEnc := ⟨rfl, by decide, by decide⟩

theorem parVer : Statement .parVer := ⟨rfl, by decide, by decide⟩

theorem csEnc : Statement .csEnc := ⟨rfl, by decide, by decide⟩

theorem csVer : Statement .csVer := ⟨rfl, by decide, by decide⟩

theorem crcEnc : Statement .crcEnc := ⟨rfl, by decide, by decide⟩

theorem crcVer : Statement .crcVer := ⟨rfl, by decide, by decide⟩

theorem crcStrip : Statement .crcStrip := ⟨rfl, by decide, by decide⟩

theorem hamEnc : Statement .hamEnc := ⟨rfl, by decide, by decide⟩

theorem hamDec : Statement .hamDec := ⟨rfl, by decide, by decide⟩

theorem pipeTx : Statement .pipeTx := ⟨rfl, by decide, by decide⟩

theorem pipeRx : Statement .pipeRx := ⟨rfl, by decide, by decide⟩

end Sys2Proof.Laws.FormatC
end

