-- ==== Sys2Proof/Laws/Step.lean ====
section
/-! SUPPORT. What one step can be, said once: a completion of the held command, or a step of the outside world. -/

namespace Sys2Proof.Machine

theorem step_complete {s : State} (hb : s.phase = .busy) (hw : s.waiting = 0) : step s = engineStep s := by
  simp [step, hb, hw]

theorem step_waiting {s : State} {n : Nat} (hb : s.phase = .busy) (hw : s.waiting = n + 1) :
    step s = hostStep (s.withWaiting n) := by
  simp [step, hb, hw]

theorem step_idle {s : State} (hi : s.phase = .idle) : step s = hostStep s := by
  simp [step, hi]

theorem hostStep_nil {s : State} (h : s.inputs = []) : hostStep s = .next s := by
  simp [hostStep, h]

theorem hostStep_cons {s : State} {i : Input} {rest : List Input} (h : s.inputs = i :: rest) :
    hostStep s = serve (s.withInputs rest) i := by
  simp [hostStep, h]

/-- Every command has a meaning on every state: it completes (R42). -/
theorem exec_next (i : Instr) (s : State) : ∃ t, exec i s = .next t := by
  cases i <;> first | exact ⟨_, rfl⟩ | skip
  simp only [exec, execXfer]
  split <;> exact ⟨_, rfl⟩

/-- What one command's completion is: XFER's, a unit command's or a pipeline command's. -/
theorem exec_cases (i : Instr) (s : State) :
    i = .xfer ∨ (∃ engine, exec i s = .next (s.completeUnit engine)) ∨ (∃ rule, exec i s = .next (s.completePipe rule)) := by
  cases i <;> first | exact .inl rfl | exact .inr (.inl ⟨_, rfl⟩) | exact .inr (.inr ⟨_, rfl⟩)

theorem engineStep_decoded {s : State} {i : Instr} (h : decode s.cmd = .ok i) : engineStep s = exec i s := by
  simp [engineStep, h]

theorem engineStep_illegal {s : State} {r : DecodeReject} (h : decode s.cmd = .error r) :
    engineStep s = .next s.completeIllegal := by
  simp [engineStep, h]

@[simp] theorem State.withFetchWord_phase (s : State) (nbits w : Nat) : (s.withFetchWord nbits w).phase = .busy := rfl

@[simp] theorem State.withFetchWord_waiting (s : State) (nbits w : Nat) : (s.withFetchWord nbits w).waiting = 0 := rfl

@[simp] theorem State.withFetchWord_cmd (s : State) (nbits w : Nat) : (s.withFetchWord nbits w).cmd = tableWord nbits w := rfl

/-- The very next step after `withFetchWord` is the engine's step on that command word. -/
theorem step_withFetchWord (s : State) (nbits w : Nat) :
    step (s.withFetchWord nbits w) = engineStep (s.withFetchWord nbits w) :=
  step_complete rfl rfl

end Sys2Proof.Machine
end

