-- ==== Sys2Proof/Tests/Slice0.lean ====
section
/-! SUPPORT. The model's own tests. Expected values come from 95_test_vectors.md (the vector is named) or from the rule named; the
witnesses at the end show that the hypotheses of each obligation can be met together, clause by clause. -/

namespace Sys2Proof.Tests

open Sys2Proof Sys2Proof.Machine Sys2Proof.Pseudocode

/-! ## Small states -/

/-- The bit string of the `n` low bits of `v`, most significant first. -/
def bits (n v : Nat) : Bits := bitsOf (BitVec.ofNat n v)

/-- The state after reset with `x` in IN. -/
def onInput (x : Bits) : State := { State.reset with inBuf := BitMem.cells 0 x, inLen := BitVec.ofNat 20 x.length }

/-- The same with a CONFIG and a PARITY_PAD. -/
def onPipe (config pad : Nat) (x : Bits) : State :=
  { onInput x with config := ConfigReg.ofWord (BitVec.ofNat 32 config), pads := { parityPad := BitVec.ofNat 8 pad, crcPad := 64 } }

/-- The same with these capacities. -/
def withCaps (maxIn maxOut : Nat) (s : State) : State :=
  { s with params := { blockBase := 0, maxInBits := maxIn, maxOutBits := maxOut } }

/-- A state in which the held command word is due. -/
def held (w : Nat) (s : State) : State := s.withFetchWord 32 w

/-- A next state of an answer. -/
def nextOf : StepResult → Option State
  | .next t => some t
  | _ => none

/-- The state one step after the command word `w` is due. -/
def after (w : Nat) (s : State) : Option State := nextOf (step (held w s))

/-- OUT, STATUS and DIAG. -/
def seen (t : State) : Bits × Word × Word := (t.outString, t.statusWord, t.diag.word)

/-- The three trace lengths. -/
def traceLens (t : State) : Nat × Nat × Nat := (t.trace0Len.toNat, t.trace1Len.toNat, t.trace2Len.toNat)

/-! ## WellFormed: each check refuses an ill-formed term (R8, R70) -/

theorem test_wf_default : Params.default.wf := by decide

theorem test_wf_refuses_base : ¬ Params.wf { Params.default with blockBase := 0x40000 } := by decide

theorem test_wf_refuses_in_not_words : ¬ Params.wf { Params.default with maxInBits := 2049 } := by decide

theorem test_wf_refuses_in_small : ¬ Params.wf { Params.default with maxInBits := 2016 } := by decide

theorem test_wf_refuses_in_large : ¬ Params.wf { Params.default with maxInBits := 524320 } := by decide

theorem test_wf_refuses_out_not_words : ¬ Params.wf { Params.default with maxOutBits := 2049 } := by decide

theorem test_wf_refuses_out_small : ¬ Params.wf { Params.default with maxOutBits := 2016 } := by decide

theorem test_wf_refuses_out_large : ¬ Params.wf { Params.default with maxOutBits := 524320 } := by decide

theorem test_wf_bounds : Params.wf { blockBase := 0x80000, maxInBits := 2048, maxOutBits := 524288 } := by decide

theorem test_wf_refuses_reserved_low : ¬ commandReservedZero 0x00000110 := by decide

theorem test_wf_refuses_reserved_high : ¬ commandReservedZero 0x80000010 := by decide

/-! ## Decode: each command's word, bit 31 first, from R70 and R72 -/

theorem test_decode_bitstring : decode 0b00000000000000000000000000000001 = .ok .xfer := rfl

theorem test_decode_framing :
    decode 0b00000000000000000000000000010000 = .ok .ccEnc ∧ decode 0b00000000000000000000000000010001 = .ok .ccDec
      ∧ decode 0b00000000000000000000000000010010 = .ok .byteEnc ∧ decode 0b00000000000000000000000000010011 = .ok .byteDec
      ∧ decode 0b00000000000000000000000000010100 = .ok .bitEnc ∧ decode 0b00000000000000000000000000010101 = .ok .bitDec :=
  ⟨rfl, rfl, rfl, rfl, rfl, rfl⟩

theorem test_decode_detection :
    decode 0b00000000000000000000000000100000 = .ok .parEnc ∧ decode 0b00000000000000000000000000100001 = .ok .parVer
      ∧ decode 0b00000000000000000000000000100010 = .ok .csEnc ∧ decode 0b00000000000000000000000000100011 = .ok .csVer
      ∧ decode 0b00000000000000000000000000100100 = .ok .crcEnc ∧ decode 0b00000000000000000000000000100101 = .ok .crcVer
      ∧ decode 0b00000000000000000000000000100110 = .ok .crcStrip :=
  ⟨rfl, rfl, rfl, rfl, rfl, rfl, rfl⟩

theorem test_decode_correction :
    decode 0b00000000000000000000000000110000 = .ok .hamEnc ∧ decode 0b00000000000000000000000000110001 = .ok .hamDec :=
  ⟨rfl, rfl⟩

theorem test_decode_pipeline :
    decode 0b00000000000000000000000001000000 = .ok .pipeTx ∧ decode 0b00000000000000000000000001000001 = .ok .pipeRx :=
  ⟨rfl, rfl⟩

/-- E3, E4, E5 and the neighbours of each opcode range (R73). -/
theorem test_decode_rejects :
    decode 0x00000000 = .error .unassignedOpcode ∧ decode 0x00000110 = .error .reservedNonZero
      ∧ decode 0x000000FF = .error .unassignedOpcode ∧ decode 0x00000002 = .error .unassignedOpcode
      ∧ decode 0x00000016 = .error .unassignedOpcode ∧ decode 0x00000027 = .error .unassignedOpcode
      ∧ decode 0x00000032 = .error .unassignedOpcode ∧ decode 0x00000042 = .error .unassignedOpcode :=
  ⟨rfl, rfl, rfl, rfl, rfl, rfl, rfl, rfl⟩

/-- The words of opcode_table.json. -/
theorem test_decode_table :
    decodeTableWord 32 0x00000026 = some .crcStrip ∧ decodeTableWord 32 0x00000100 = none ∧ decodeTableWord 64 0x26 = none :=
  ⟨rfl, rfl, rfl⟩

theorem test_opcode_map_unambiguous : opcodeMap.Pairwise (fun a b => a.1 ≠ b.1 ∧ a.2 ≠ b.2) := by decide

/-! ## Commands -/

/-- X1. -/
theorem test_xfer :
    (after 0x01 { State.reset with out := BitMem.cells 0 (bits 16 0x0105), outLen := 16 }).map
      (fun t => (t.inString, t.inLen.toNat, t.outLen.toNat, t.statusWord)) = some (bits 16 0x0105, 16, 16, 0x00000002) := by decide

/-- X4. -/
theorem test_xfer_capacity :
    (after 0x01 (withCaps 2048 4096 { State.reset with outLen := 3000 })).map
      (fun t => (t.inLen.toNat, t.outLen.toNat, t.statusWord)) = some (0, 3000, 0x00000602) := by decide

/-- V1. -/
theorem test_ccEnc : (after 0x10 (onInput (bits 3 0b101))).map seen = some (bits 16 0x0105, 0x00000002, 0) := by decide

/-- V6. -/
theorem test_ccDec_mismatch :
    (after 0x11 (onInput (bits 16 0x0241))).map seen = some (bits 8 0x41, 0x00000002, 0x01) := by decide

/-- V7. -/
theorem test_ccDec_short : (after 0x11 (onInput (bits 7 0))).map seen = some ([], 0x00000202, 0) := by decide

/-- V11. -/
theorem test_byteEnc :
    (after 0x12 (onInput (bits 24 0x7E417D))).map seen = some (bits 56 0x7E7D7E417D7D7E, 0x00000002, 0) := by decide

/-- V25. -/
theorem test_byteDec_tail :
    (after 0x13 (onInput (bits 27 0b011111100100000101111110101))).map seen = some (bits 8 0x41, 0x00000002, 0x40) := by decide

/-- V21. -/
theorem test_byteDec_escape :
    (after 0x13 (onInput (bits 8 0x7D))).map seen = some ([], 0x00000002, 0x24) := by decide

/-- V28. -/
theorem test_bitEnc :
    (after 0x14 (onInput (bits 6 0b111111))).map seen = some (bits 23 0b01111110111110101111110, 0x00000002, 0) := by decide

/-- V39. -/
theorem test_bitDec_long_run :
    (after 0x15 (onInput (bits 22 0b0111111011111011111110))).map seen
      = some (bits 13 0b1111111111110, 0x00000002, 0x02) := by decide

/-- V40. -/
theorem test_bitDec_flags : (after 0x15 (onInput (bits 24 0x7E7E7E))).map seen = some (bits 8 0x7E, 0x00000002, 0) := by decide

/-- V45. -/
theorem test_parEnc : (after 0x20 (onInput (bits 4 0b1011))).map seen = some (bits 5 0b10111, 0x00000002, 0) := by decide

/-- V46, at the reset PARITY_PAD of 7. -/
theorem test_parVer :
    (after 0x21 (onInput (bits 40 0x0092DCCCDE))).map seen = some (bits 32 0x496E666F, 0x00000006, 0) := by decide +kernel

/-- V50. -/
theorem test_parVer_short :
    (after 0x21 (onInput (bits 7 0b1010101))).map seen = some ([], 0x00000006, 0x20) := by decide

/-- V55: the right pad. -/
theorem test_csEnc :
    (after 0x22 (onInput (bits 3 0b101))).map (fun t => (seen t, t.csumValue)) = some ((bits 16 0xA05F, 0x00000002, 0), 0x5F) := by decide

/-- V63. -/
theorem test_csVer_invalid :
    (after 0x23 (onInput (bits 40 0x416E666F72))).map (fun t => (seen t, t.csumValue))
      = some ((bits 32 0x416E666F, 0x00000002, 0), 0xF7) := by decide

/-- V69. -/
theorem test_csVer_misaligned : (after 0x23 (onInput (bits 8 0xFF))).map seen = some ([], 0x00000302, 0) := by decide

/-- V72. -/
theorem test_crcEnc :
    (after 0x24 (onInput (bits 8 0x41))).map (fun t => (seen t, t.crcValue))
      = some ((bits 104 0x4100000000000000009314C512, 0x00000002, 0), 0x9314C512) := by decide +kernel

/-- V84: the generator itself. -/
theorem test_crcVer :
    (after 0x25 (onInput (bits 33 0x104C11DB7))).map seen = some (bits 33 0x104C11DB7, 0x00000006, 0) := by decide

/-- V81. -/
theorem test_crcVer_flip :
    (after 0x25 (onInput (bits 104 0x4100000000000000009314C513))).map State.statusWord = some 0x00000002 := by decide +kernel

/-- V85, at the reset CRC_PAD of 64. -/
theorem test_crcStrip :
    (after 0x26 (onInput (bits 104 0x4100000000000000009314C512))).map seen = some (bits 8 0x41, 0x00000002, 0) := by decide

/-- V88. -/
theorem test_crcStrip_short : (after 0x26 (onInput (zeros 95))).map seen = some ([], 0x00000002, 0x20) := by decide

/-- V90. -/
theorem test_hamEnc :
    (after 0x30 (onInput (bits 7 0b1101001))).map seen = some (bits 11 0b01101011001, 0x00000002, 0) := by decide

/-- V105. -/
theorem test_hamDec_corrected :
    (after 0x31 (onInput (bits 11 0b01101111001))).map (fun t => (seen t, t.syndrome))
      = some ((bits 7 0b1101001, 0x0000000A, 0), 6) := by decide

/-- V108. -/
theorem test_hamDec_uncorrectable :
    (after 0x31 (onInput (bits 11 0b00000010001))).map (fun t => (seen t, t.syndrome))
      = some ((bits 7 0b0001001, 0x00000012, 0x10), 12) := by decide

/-- W3. -/
theorem test_pipeTx :
    (after 0x40 (onPipe 0x121 7 (bits 3 0b101))).map (fun t => (seen t, t.csumValue, traceLens t))
      = some ((bits 32 0x7EAFC011, 0x00000002, 0), 0x11, (19, 19, 32)) := by decide

/-- W7: CORRECTION is blamed before DETECTION. -/
theorem test_pipeTx_config_error :
    (after 0x40 (onPipe 0x158 7 (bits 32 0x496E666F))).map (fun t => (seen t, traceLens t))
      = some (([], 0x00002402, 0), (0, 0, 0)) := by decide

/-- W15. -/
theorem test_pipeRx :
    (after 0x41 (onPipe 0x121 7 (bits 32 0x7EAFC011))).map (fun t => (seen t, t.csumValue, traceLens t))
      = some ((bits 16 0xAFC0, 0x00000006, 0x02), 0xFF, (24, 24, 16)) := by decide

/-- W17: the last stage fails, and the first two traces stay. -/
theorem test_pipeRx_abort :
    (after 0x41 (onPipe 0x130 7 (zeros 100))).map (fun t => (seen t, traceLens t))
      = some (([], 0x00001202, 0), (4, 4, 0)) := by decide

/-- R29, R108, D10 (log 18): the abort of an output that is too long keeps the engine's flags. -/
theorem test_output_capacity :
    guardOutput { Params.default with maxOutBits := 8 } { out := zeros 9, diag := { bareFlag := true } }
      = { err := some .capacity, diag := { bareFlag := true } } := by decide

/-- R98: `crc_rx` keeps the check of the whole string beside what it strips, at another CRC_PAD (V81, V86) and when too short (V88). -/
theorem test_crcRx :
    crcRx 0 (bits 104 0x4100000000000000009314C513) = .ok { out := bits 72 0x410000000000000000 }
      ∧ crcRx 0 (zeros 32) = .ok { valid := true }
      ∧ crcRx 64 (zeros 95) = .ok { valid := true, diag := { short := true } } := by decide +kernel

/-! ## Registers, the bus and the lifecycle -/

/-- E3. -/
theorem test_illegal : (after 0x00 State.reset).map seen = some ([], 0x00000502, 0) := by decide

/-- E1: the values at reset. -/
theorem test_reset_words :
    (State.reset.readTarget .status, State.reset.readTarget .pads, State.reset.readTarget .config) = (0, 0x00400007, 0) := by decide

/-- E20, E21: reserved bits read 0, reserved strategy values are stored. -/
theorem test_write_ones :
    ((State.reset.writeTarget 0xFFFFFFFF .pads).readTarget .pads, (State.reset.writeTarget 0xFFFFFFFF .config).readTarget .config)
      = (0xFFFF00FF, 0x0000017F) := by decide

/-- E17: a CMD write while BUSY is ignored and sets OVERRUN. -/
theorem test_overrun :
    (nextOf (hostAccess (held 0x30 State.reset) (.write 0x000 4 0x10))).map (fun t => (t.cmd, t.statusWord))
      = some (0x30, 0x00008001) := by decide

/-- R52: bit 0 of IN is bit 31 of word 0, and P1's first word gives `1101001`. -/
theorem test_in_window :
    ({ State.reset.writeTarget 0xD2000000 (.inData 0) with inLen := 7 } : State).inString = bits 7 0b1101001 := by decide

/-- R26: the edges of the map. -/
theorem test_map :
    (targetOf 0x030, targetOf 0x034, targetOf 0xFFFC, targetOf 0x10000, targetOf 0x5FFFC)
      = (.trace2Len, .reserved, .reserved, .inData 0, .trace2Data 16383) := by decide

/-- E22. -/
theorem test_refused_access :
    step { State.reset with inputs := [.read 0x002 4] } = .next { State.reset with resp := .failed .busRefused } := rfl

/-! ## Witnesses: the hypotheses of each obligation, met together

Each theorem is named after its obligation. A clause whose antecedent has a range is met at the ends of the range. -/

/-- The hypotheses of every unit-command result. -/
abbrev unitReady (s : State) : Prop := s.params.wf ∧ s.inLen.toNat ≤ s.params.maxInBits

/-- CONFIG selects these strategies. -/
abbrev selects (s : State) (f : Framing) (k : Correction) (d : Detection) : Prop :=
  framingOf s.config.framing = some f ∧ correctionOf s.config.correction = some k ∧ detectionOf s.config.detection = some d

/-- BLOCK_BASE is not 0, so that an address below the aperture exists. -/
def based : State := { State.reset with params := { Params.default with blockBase := 0x80000 } }

/-- A busy state in which one host step is still to pass. -/
def waitingOne (i : Input) : State := { held 0x10 State.reset with waiting := 1, inputs := [i] }

theorem witness_IllegalWordsCompleteWithIllegalCmd :
    ((held 0x110 State.reset).phase = .busy ∧ (held 0x110 State.reset).waiting = 0
      ∧ (held 0x110 State.reset).cmd.extractLsb' 8 24 ≠ 0) ∧
    ((held 0x27 State.reset).phase = .busy ∧ (held 0x27 State.reset).waiting = 0
      ∧ (held 0x27 State.reset).cmd.extractLsb' 0 8 ∉ ([0x01, 0x10, 0x11, 0x12, 0x13, 0x14, 0x15, 0x20, 0x21, 0x22, 0x23, 0x24, 0x25,
        0x26, 0x30, 0x31, 0x40, 0x41] : List Byte)) := by decide

theorem witness_StepRunsTheDecodedCommand :
    (held 0x10 State.reset).phase = .busy ∧ (held 0x10 State.reset).waiting = 0 ∧ decode (held 0x10 State.reset).cmd = .ok .ccEnc :=
  ⟨rfl, rfl, rfl⟩

theorem witness_StepServesTheHostUntilCompletion :
    State.reset.phase = .idle ∧ (waitingOne .reset).phase = .busy ∧ (waitingOne .reset).waiting = 0 + 1 ∧ State.reset.inputs = []
      ∧ (waitingOne .reset).inputs = .reset :: []
      ∧ hostAccess State.reset (.write 0x000 4 0x10) = .next ((State.reset.accept 0x10).respond .ack)
      ∧ hostAccess State.reset (.read 0x001 4) = .fault .busRefused :=
  ⟨rfl, rfl, rfl, rfl, rfl, rfl, rfl⟩

theorem witness_HeldCommandCompletesOnUnchangedOperands :
    (waitingOne (.read 0x004 4)).phase = .busy ∧ (waitingOne (.read 0x004 4)).done = false
      ∧ decode (waitingOne (.read 0x004 4)).cmd = .ok .ccEnc
      ∧ Input.reset ∉ (waitingOne (.read 0x004 4)).inputs.take (waitingOne (.read 0x004 4)).waiting :=
  ⟨rfl, rfl, rfl, by decide⟩

theorem witness_CmdWriteWhileIdleIsAccepted : State.reset.params.wf ∧ State.reset.phase = .idle := by decide

theorem witness_WritesWhileBusyAreIgnoredAndFlagged :
    (held 0x10 State.reset).params.wf ∧ (held 0x10 State.reset).phase = .busy
      ∧ (∀ off ∈ [0x000, 0x00C, 0x010, 0x014, 0x10000, 0x1FFFC],
          off ∈ [0x000, 0x00C, 0x010, 0x014] ∨ (0x10000 ≤ off ∧ off < 0x20000 ∧ off % 4 = 0))
      ∧ (∀ off ∈ [0x008, 0x018, 0xFFFC, 0x20000, 0x5FFFC],
          off < 0x60000 ∧ off % 4 = 0 ∧ (off = 0x008 ∨ (0x018 ≤ off ∧ off < 0x10000) ∨ 0x20000 ≤ off)) := by decide

/-- A STATUS write of `0x8000` in an overrun state, while IDLE. -/
def clearing : State := { State.reset with overrun := true, inputs := [.write 0x004 4 0x8000] }

theorem witness_OverrunIsClearedOnlyByStatusWriteOrReset :
    clearing.params.wf ∧ clearing.overrun = true ∧ (nextOf (step clearing)).map State.overrun = some false
      ∧ (nextOf (step { clearing with inputs := [.reset] })).map State.overrun = some false
      ∧ (held 0x10 State.reset).phase = .busy ∧ (0x10000 ≤ 0x1FFFC ∧ 0x1FFFC < 0x20000 ∧ 0x1FFFC % 4 = 0)
      ∧ (0x00008000 : Word).getLsbD 15 = true := by decide

theorem witness_ReservedOffsetsAndFieldsReadZeroAndIgnoreWrites :
    ∀ off ∈ [0x034, 0xFFFC], 0x034 ≤ off ∧ off < 0x10000 ∧ off % 4 = 0 := by decide

theorem witness_ControlRegistersReadBackAsWritten : State.reset.phase = .idle := rfl

theorem witness_HostAccessesReachTheRegisterMap :
    State.reset.params.wf
      ∧ (∀ off ∈ [0x000, 0x030, 0x034, 0xFFFC], off < 0x60000 ∧ off % 4 = 0 ∧ off < 0x10000)
      ∧ (∀ b ∈ [0x10000, 0x20000, 0x30000, 0x40000, 0x50000], ∀ k ∈ [0, 16383],
          b + 4 * k < 0x60000 ∧ (b + 4 * k) % 4 = 0 ∧ b + 4 * k < b + 0x10000) := by decide

theorem witness_RefusedAccessesAreFaultsOfTheHostStep :
    (∀ a ∈ [(0x80000, 2), (0x80002, 4), (0xDFFFF, 4), (0xDFFFC, 8)],
      based.params.blockBase ≤ a.1 ∧ a.1 < based.params.blockBase + 0x60000 ∧ (a.2 ≠ 4 ∨ a.1 % 4 ≠ 0)) ∧
    (∀ a ∈ [0x7FFFC, 0xE0000], a < based.params.blockBase ∨ based.params.blockBase + 0x60000 ≤ a) := by decide

theorem witness_InDataWordReadsBackAsWritten :
    State.reset.phase = .idle ∧ (held 0x10 State.reset).phase = .busy
      ∧ (∀ k ∈ [0, 16383], k < State.reset.params.maxInBits / 32) ∧ State.reset.params.maxInBits / 32 ≤ 16384
      ∧ (onInput (bits 32 1)).inBuf.get (32 * 0 + 31) = some true ∧ State.reset.inBuf.get (32 * 0 + 31) = none := by decide

/-- A state after a pipeline command with every string recorded. -/
def piped : State := ((after 0x40 (onPipe 0x121 7 (bits 3 0b101))).getD State.reset)

/-- The state of `onInput` meets the invariant. -/
theorem inv_onInput : (onInput (bits 3 0b101)).Inv where
  params := by decide
  inCanonical := by decide
  inWithinCap := by decide
  out := ⟨by decide, by decide, by decide, by decide⟩
  trace0 := ⟨by decide, by decide, by decide, by decide⟩
  trace1 := ⟨by decide, by decide, by decide, by decide⟩
  trace2 := ⟨by decide, by decide, by decide, by decide⟩
  busyNotDone := by decide
  idleNotWaiting := by decide
  errorClears := by decide
  stageNeedsError := by decide

theorem inv_piped : piped.Inv where
  params := by decide
  inCanonical := by decide
  inWithinCap := by decide
  out := ⟨by decide, by decide, by decide, by decide⟩
  trace0 := ⟨by decide, by decide, by decide, by decide⟩
  trace1 := ⟨by decide, by decide, by decide, by decide⟩
  trace2 := ⟨by decide, by decide, by decide, by decide⟩
  busyNotDone := by decide
  idleNotWaiting := by decide
  errorClears := by decide
  stageNeedsError := by decide

/-- A codeword with a flipped bit, its decoder due. -/
def decoding : State := held 0x31 (onInput (bits 11 0b01101111001))

theorem inv_decoding : decoding.Inv where
  params := by decide
  inCanonical := by decide
  inWithinCap := by decide
  out := ⟨by decide, by decide, by decide, by decide⟩
  trace0 := ⟨by decide, by decide, by decide, by decide⟩
  trace1 := ⟨by decide, by decide, by decide, by decide⟩
  trace2 := ⟨by decide, by decide, by decide, by decide⟩
  busyNotDone := by decide
  idleNotWaiting := by decide
  errorClears := by decide
  stageNeedsError := by decide

theorem witness_ResultWindowsShowTheirStrings :
    piped.Inv ∧ piped.phase = .idle ∧ 32 * 0 + 31 < piped.outLen.toNat ∧ 32 * 0 + 18 < piped.trace0Len.toNat
      ∧ piped.outLen.toNat ≤ 32 * 1 + 0 ∧ piped.trace0Len.toNat ≤ 32 * 0 + 19
      ∧ (∀ k ∈ [0, 16383], k < piped.params.maxOutBits / 32) ∧ piped.params.maxOutBits / 32 ≤ 16384
      ∧ (held 0x10 piped).phase = .busy :=
  ⟨inv_piped, by decide, by decide, by decide, by decide, by decide, by decide, by decide, rfl⟩

/-- All bits written; a written bit beside an unwritten one; no bit written; and the same of OUT. -/
theorem witness_InputOperandIsTheStoredString :
    (onInput (bits 3 0b101)).holdsIn (bits 3 0b101)
      ∧ (1 < ({ onInput [true, true] with inLen := 3 } : State).inLen.toNat
        ∧ ({ onInput [true, true] with inLen := 3 } : State).inBuf.get 1 = some true
        ∧ ({ onInput [true, true] with inLen := 3 } : State).inBuf.get 2 = none)
      ∧ ({ State.reset with out := BitMem.cells 0 (bits 3 0b101), outLen := 3 } : State).showsOut (bits 3 0b101)
      ∧ (0 < ({ State.reset with outLen := 1 } : State).outLen.toNat ∧ ({ State.reset with outLen := 1 } : State).out.get 0 = none)
      ∧ (0 < ({ State.reset with inLen := 1 } : State).inLen.toNat ∧ ({ State.reset with inLen := 1 } : State).inBuf.get 0 = none) := by
  decide

theorem witness_InvariantHoldsAtReset : Params.wf { blockBase := 0x80000, maxInBits := 2048, maxOutBits := 2048 } := by decide

theorem witness_EveryStepKeepsTheInvariant :
    decoding.Inv ∧ (nextOf (step decoding)).isSome = true ∧ (onInput (bits 3 0b101)).Inv
      ∧ (nextOf (step (onInput (bits 3 0b101)))).isSome = true :=
  ⟨inv_decoding, by decide, inv_onInput, by decide⟩

theorem witness_EveryStepKeepsCorrInAgreementWithSyndrome :
    decoding.Inv ∧ decoding.CorrAgrees ∧ (nextOf (step decoding)).map (fun t => (t.corr, t.syndrome)) = some (.corrected, 6) :=
  ⟨inv_decoding, ⟨by decide, by decide⟩, by decide⟩

theorem witness_TracesChangeOnlyByPipelineCommandsOrReset :
    (after 0x40 (onPipe 0x121 7 (bits 3 0b101))).map traceLens = some (19, 19, 32)
      ∧ (nextOf (step { piped with inputs := [.reset] })).map traceLens = some (0, 0, 0) := by decide

/-- The outside world writes `v` at `off`. -/
def writing (off : Nat) (v : Word) : State := { State.reset with inputs := [.write off 4 v] }

theorem witness_OperandsChangeOnlyByIdleHostWritesXferOrReset :
    State.reset.params.wf
      ∧ (nextOf (step (writing 0x000 0x10))).map State.cmd = some 0x10
      ∧ (nextOf (step (writing 0x00C 0x121))).map (fun t => t.config.word) = some 0x121
      ∧ (nextOf (step (writing 0x010 0))).map (fun t => t.pads.word) = some 0
      ∧ (nextOf (step (writing 0x014 5))).map State.inLen = some 5
      ∧ (nextOf (step (writing 0x1FFFC 0x80000000))).map (fun t => t.inBuf.get 524256) = some (some true)
      ∧ (after 0x01 piped).map State.inLen = some 32 := by decide

theorem witness_XferCopiesOutToIn :
    piped.outLen.toNat ≤ piped.params.maxInBits
      ∧ (withCaps 2048 4096 { State.reset with outLen := 2048 }).outLen.toNat ≤ 2048
      ∧ 2048 < (withCaps 2048 4096 { State.reset with outLen := 2049 }).outLen.toNat := by decide

theorem witness_CcEncPrependsTheOctetCount : unitReady (onInput (bits 3 0b101)) := by decide

theorem witness_CcDecReturnsTheDeclaredOctets : unitReady (onInput (bits 16 0x0141)) := by decide

theorem witness_ByteEncEscapesFlagsAndEscapes : unitReady (onInput (bits 24 0x7E417D)) := by decide

theorem witness_ByteDecScansTheBody : unitReady (onInput (bits 24 0x7E417E)) := by decide

theorem witness_BitEncStuffsAfterFiveOnes : unitReady (onInput (bits 6 0b111111)) := by decide

theorem witness_BitDecDropsStuffedZeros : unitReady (onInput (bits 24 0x7E7C7E)) := by decide

theorem witness_ParEncMakesTheOnesEven : unitReady (onInput (bits 4 0b1011)) := by decide

theorem witness_ParVerChecksAndStrips : unitReady (onInput (bits 8 0x01)) := by decide

theorem witness_CsEncAppendsTheComplementedSum : unitReady (onInput (bits 32 0x496E666F)) := by decide

theorem witness_CsVerChecksTheFoldedSum : unitReady (onInput (bits 16 0xFF00)) := by decide

theorem witness_CrcEncAppendsTheRemainder : unitReady (onInput (bits 8 0x41)) := by decide

theorem witness_CrcVerIsValidOnMultiplesOfG : unitReady (onInput (bits 33 0x104C11DB7)) := by decide

theorem witness_CrcStripDropsCrcAndPad : unitReady (onInput (zeros 96)) := by decide

theorem witness_HamEncBuildsTheCodeword : unitReady (onInput (bits 7 0b1101001)) := by decide

theorem witness_HamDecCorrectsTheNamedPosition : unitReady (onInput (bits 11 0b01101111001)) := by decide

/-- The stage results W3 runs through. -/
def w3Frame : Res := { out := bits 19 0b0111111010101111110 }
/-- The second stage of W3 changes nothing. -/
def w3Code : Res := w3Frame
/-- The third stage of W3. -/
def w3Block : Res := { out := bits 32 0x7EAFC011, csumValue := 0x11 }

theorem witness_PipeTxRunsFramingCorrectionDetection :
    unitReady (onPipe 0x121 7 (bits 3 0b101))
      ∧ selects (onPipe 0x121 7 (bits 3 0b101)) .bitStuff .none .checksum
      ∧ stageOk 524288 Framing.bitStuff.encoder (onPipe 0x121 7 (bits 3 0b101)).inString w3Frame
      ∧ stageOk 524288 Correction.none.encoder w3Frame.out w3Code
      ∧ stageOk 524288 Detection.checksum.encoder w3Code.out w3Block :=
  ⟨by decide, by decide, ⟨rfl, by decide⟩, ⟨rfl, by decide⟩, ⟨rfl, by decide⟩⟩

/-- The stage results W15 runs through. -/
def w15Checked : Res := { out := bits 24 0x7EAFC0, valid := true, csumValue := 0xFF }
/-- The second stage of W15. -/
def w15Code : Res := { out := bits 24 0x7EAFC0 }
/-- The third stage of W15. -/
def w15Frame : Res := { out := bits 16 0xAFC0, diag := { missingDelim := true } }

theorem witness_PipeRxRunsDetectionCorrectionFraming :
    unitReady (onPipe 0x121 7 (bits 32 0x7EAFC011)) ∧ selects (onPipe 0x121 7 (bits 32 0x7EAFC011)) .bitStuff .none .checksum
      ∧ stageOk 524288 (Detection.checksum.decoder 7 64) (onPipe 0x121 7 (bits 32 0x7EAFC011)).inString w15Checked
      ∧ stageOk 524288 Correction.none.decoder w15Checked.out w15Code
      ∧ stageOk 524288 Framing.bitStuff.decoder w15Code.out w15Frame :=
  ⟨by decide, by decide, ⟨rfl, by decide⟩, ⟨rfl, by decide⟩, ⟨rfl, by decide⟩⟩

theorem witness_ConfigErrorNamesTheFirstReservedField :
    Instr.pipeTx ∈ [Instr.pipeTx, .pipeRx] ∧ (onPipe 0x73 7 []).inLen.toNat ≤ 524288 ∧ (onPipe 0x73 7 []).config.framing = 3
      ∧ (∀ w ∈ [0x78, 0x0C], (onPipe w 7 []).config.framing ≠ 3 ∧ 2 ≤ (onPipe w 7 []).config.correction.toNat)
      ∧ (∀ w ∈ [0x40, 0x76], (onPipe w 7 []).config.framing ≠ 3 ∧ (onPipe w 7 []).config.correction.toNat < 2
          ∧ 4 ≤ (onPipe w 7 []).config.detection.toNat) := by decide

/-- A block whose OUT holds only 2048 bits, so that each transmit stage can overflow it, with `n` bits of IN that nothing has
written: free values, whatever they are. -/
def smallOut (config n : Nat) : State :=
  withCaps 524288 2048 { onPipe config 7 [] with inLen := BitVec.ofNat 20 n }

theorem length_smallOut (config n : Nat) (h : n < 2 ^ 20) : (smallOut config n).inString.length = n := by
  have : (smallOut config n).inString.length = (BitVec.ofNat 20 n).toNat := BitMem.read_length _ _ _
  rw [this, BitVec.toNat_ofNat, Nat.mod_eq_of_lt h]

/-- The character-count frame of `8 n` bits takes `8 n + 8`. -/
theorem frame_smallOut (config n : Nat) (h : n ≤ 255) :
    ∃ r, stageOk 2048 Framing.charCount.encoder (smallOut config (8 * n)).inString r ∧ r.out.length = 8 * n + 8 := by
  have hl := length_smallOut config (8 * n) (by omega)
  have hp : (padLeft8 (smallOut config (8 * n)).inString).length = 8 * n := by
    rw [padLeft8_of_aligned (by omega), hl]
  have ho := ccEnc_ok (x := (smallOut config (8 * n)).inString) (by omega)
  refine ⟨_, ⟨ho, ?_⟩, ?_⟩ <;> simp only [List.length_append, length_bitsOf, hp] <;> omega

/-- The framing stage raises: 2041 bits are 256 octets. -/
theorem witness_PipeTxAbortsAtTheFailingStage_framing :
    unitReady (smallOut 0x100 2041) ∧ selects (smallOut 0x100 2041) .charCount .none .none
      ∧ stageRaises 2048 Framing.charCount.encoder (smallOut 0x100 2041).inString .frameTooLarge := by
  have hl := length_smallOut 0x100 2041 (by decide)
  have hp : 255 < (padLeft8 (smallOut 0x100 2041).inString).length / 8 := by
    rw [length_padLeft8, padLength, hl]
    decide
  have he : Framing.charCount.encoder (smallOut 0x100 2041).inString = .error .frameTooLarge := by
    rw [Framing.encoder]
    exact ccEnc_large hp
  exact ⟨by decide, by decide, .inl he⟩

/-- The correction stage raises: a 2040-bit frame takes 12 parity bits. -/
theorem witness_PipeTxAbortsAtTheFailingStage_correction :
    unitReady (smallOut 0x104 (8 * 254)) ∧ selects (smallOut 0x104 (8 * 254)) .charCount .hamming .none
      ∧ ∃ r, stageOk 2048 Framing.charCount.encoder (smallOut 0x104 (8 * 254)).inString r
      ∧ stageRaises 2048 Correction.hamming.encoder r.out .capacity := by
  obtain ⟨r, hr, hn⟩ := frame_smallOut 0x104 254 (by decide)
  obtain ⟨q, hq, hm⟩ := hamEnc_length r.out
  have hc : parityCount 2040 = 12 := by decide
  rw [hn] at hm
  exact ⟨by decide, by decide, r, hr, .inr ⟨q, hq, by rw [hm, show 8 * 254 + 8 = 2040 from rfl, hc]; decide, rfl⟩⟩

/-- The detection stage raises: the parity bit is one too many. -/
theorem witness_PipeTxAbortsAtTheFailingStage_detection :
    unitReady (smallOut 0x110 (8 * 255)) ∧ selects (smallOut 0x110 (8 * 255)) .charCount .none .parity
      ∧ ∃ r, stageOk 2048 Framing.charCount.encoder (smallOut 0x110 (8 * 255)).inString r
      ∧ stageOk 2048 Correction.none.encoder r.out { out := r.out } ∧ stageRaises 2048 Detection.parity.encoder r.out .capacity := by
  obtain ⟨r, hr, hn⟩ := frame_smallOut 0x110 255 (by decide)
  obtain ⟨q, hq, hm⟩ := parEnc_length r.out
  exact ⟨by decide, by decide, r, hr, ⟨rfl, hr.2⟩, .inr ⟨q, hq, by rw [hm, hn]; decide, rfl⟩⟩

/-- The detection stage raises (W16, of one octet), and the framing stage raises (W17). -/
theorem witness_PipeRxAbortsAtTheFailingStage :
    unitReady (onPipe 0x121 7 (bits 8 0xFF)) ∧ selects (onPipe 0x121 7 (bits 8 0xFF)) .bitStuff .none .checksum
      ∧ stageRaises 524288 (Detection.checksum.decoder 7 64) (onPipe 0x121 7 (bits 8 0xFF)).inString .misalignedFrame
      ∧ unitReady (onPipe 0x130 7 (zeros 100)) ∧ selects (onPipe 0x130 7 (zeros 100)) .charCount .none .crc32
      ∧ stageOk 524288 (Detection.crc32.decoder 7 64) (onPipe 0x130 7 (zeros 100)).inString { out := zeros 4, valid := true }
      ∧ stageOk 524288 Correction.none.decoder (zeros 4) { out := zeros 4 }
      ∧ stageRaises 524288 Framing.charCount.decoder (zeros 4) .frameTooShort :=
  ⟨by decide, by decide, .inl rfl, by decide +kernel, by decide +kernel, ⟨by decide +kernel, by decide⟩, ⟨rfl, by decide⟩, .inl rfl⟩

theorem witness_PipeRxNeverOverflowsALargeEnoughOut :
    State.reset.params.maxInBits ≤ State.reset.params.maxOutBits ∧ State.reset.inLen.toNat ≤ State.reset.params.maxInBits := by decide

theorem witness_InputAboveCapacityIsRefused :
    Instr.ccEnc ≠ .xfer ∧ State.reset.params.maxInBits < ({ State.reset with inLen := 524289 } : State).inLen.toNat := by decide

theorem witness_UnitCommandFrame :
    State.reset.params.wf ∧ Instr.hamDec ∉ [Instr.xfer, .pipeTx, .pipeRx]
      ∧ (after 0x31 { State.reset with inLen := 524289 }).map State.err = some (some .capacity) := by decide

theorem witness_XferAndPipelineFrame : State.reset.params.wf ∧ Instr.pipeRx ∈ [Instr.pipeTx, .pipeRx] := by decide

theorem witness_PowersOfTwoAndCoveringRuns : 1 ≤ 1 := Nat.le_refl 1

theorem witness_FramingRoundTrips : (zeros 2040).length ≤ 2040 ∧ (zeros 2040).length % 8 = 0 := by decide +kernel

theorem witness_DetectionRoundTrips : 1 ≤ (bits 1 1).length := by decide

theorem witness_SingleBitFlipsAreDetected :
    parEnc [true] = .ok { out := bits 2 0b11 } ∧ 1 < (bits 2 0b11).length ∧ 1 ≤ (bits 3 0b101).length
      ∧ csEnc (bits 3 0b101) = .ok { out := bits 16 0xA05F, csumValue := 0x5F } ∧ 15 < (bits 16 0xA05F).length
      ∧ crcEnc [] = .ok { out := zeros 96 } ∧ 95 < (zeros 96).length :=
  ⟨rfl, by decide, by decide, rfl, by decide, by decide +kernel, by decide⟩

theorem witness_HammingDecodesEverySingleFlipExactly :
    hamEnc (bits 4 0b1011) = .ok { out := bits 7 0b0110011 } ∧ 1 ≤ 7 ∧ 7 ≤ (bits 7 0b0110011).length := ⟨rfl, by decide, by decide⟩

/-- Three commands one after the other, each from the state the one before leaves. -/
def chain (is : List Instr) (s : State) : Option State :=
  is.foldl (fun o i => o.bind fun t => (nextOf (exec i t)).bind fun u => if u.err = none then some u else none) (some s)

/-- PARITY takes PARITY_PAD = 0. -/
theorem witness_PipelineRoundTripsWithoutChecksum :
    selects (onPipe 0x111 0 (bits 3 0b101)) .bitStuff .none .parity ∧ (onPipe 0x111 0 (bits 3 0b101)).params.wf
      ∧ Detection.parity ≠ .checksum ∧ (onPipe 0x111 0 (bits 3 0b101)).pads.parityPad = 0
      ∧ (chain [.pipeTx, .xfer, .pipeRx] (onPipe 0x111 0 (bits 3 0b101))).map seen
        = some (bits 3 0b101, 0x00000006, 0) := by decide +kernel

/-- NONE and CRC32 (with CRC_PAD = 64) at the reset PARITY_PAD of 7. -/
theorem witness_PipelineRoundTripsWithoutChecksum_reset_pads :
    selects (onPipe 0x106 7 (bits 3 0b101)) .byteStuff .hamming .none ∧ Detection.none ≠ .checksum
      ∧ (chain [.pipeTx, .xfer, .pipeRx] (onPipe 0x106 7 (bits 3 0b101))).map seen = some (bits 8 0x05, 0x00000006, 0)
      ∧ selects (onPipe 0x130 7 (bits 8 0x41)) .charCount .none .crc32 ∧ Detection.crc32 ≠ .checksum
      ∧ (onPipe 0x130 7 (bits 8 0x41)).pads.crcPad = 64
      ∧ (chain [.pipeTx, .xfer, .pipeRx] (onPipe 0x130 7 (bits 8 0x41))).map seen
        = some (bits 8 0x41, 0x00000006, 0) := by decide +kernel

/-- The e of a state whose PIPE_TX has the correction `k` (R105). -/
def padOf (f : Framing) (k : Correction) (x : Bits) : Option Nat :=
  ((f.encoder x).toOption.bind fun r1 => (k.encoder r1.out).toOption).map fun r2 => padReachingFraming k r2.out.length

/-- CHAR_COUNT, BYTE_STUFF with NONE, BIT_STUFF with e = 0 under NONE, and BIT_STUFF with e > 0 (the 19-bit frame of W3). -/
theorem witness_PipelineRoundTripsWithChecksum :
    selects (onPipe 0x120 7 (bits 3 0b101)) .charCount .none .checksum ∧ padOf .charCount .none (bits 3 0b101) = some 0
      ∧ (chain [.pipeTx, .xfer, .pipeRx] (onPipe 0x120 7 (bits 3 0b101))).map seen = some (bits 8 0x05, 0x00000006, 0)
      ∧ selects (onPipe 0x122 7 (bits 3 0b101)) .byteStuff .none .checksum ∧ padOf .byteStuff .none (bits 3 0b101) = some 0
      ∧ (chain [.pipeTx, .xfer, .pipeRx] (onPipe 0x122 7 (bits 3 0b101))).map seen = some (bits 8 0x05, 0x00000006, 0)
      ∧ selects (onPipe 0x121 7 (bits 8 0x41)) .bitStuff .none .checksum ∧ padOf .bitStuff .none (bits 8 0x41) = some 0
      ∧ (chain [.pipeTx, .xfer, .pipeRx] (onPipe 0x121 7 (bits 8 0x41))).map seen = some (bits 8 0x41, 0x00000006, 0)
      ∧ padOf .bitStuff .none (bits 3 0b101) = some 5
      ∧ (chain [.pipeTx, .xfer, .pipeRx] (onPipe 0x121 7 (bits 3 0b101))).map seen
        = some (bits 16 0b1010111111000000, 0x00000006, 0x02) := by decide +kernel

/-- HAMMING: BYTE_STUFF with e > 0 (a 24-bit frame, 29 positions, three pad bits of which position 32 is a parity position), and BIT_STUFF
with e = 0 (a 26-bit frame, 31 positions, whose one pad bit is at position 32). -/
theorem witness_PipelineRoundTripsWithChecksum_hamming :
    selects (onPipe 0x126 7 (bits 8 0x41)) .byteStuff .hamming .checksum ∧ padOf .byteStuff .hamming (bits 8 0x41) = some 2
      ∧ (chain [.pipeTx, .xfer, .pipeRx] (onPipe 0x126 7 (bits 8 0x41))).map seen = some (bits 8 0x41, 0x00000006, 0x40)
      ∧ selects (onPipe 0x125 7 (bits 10 0)) .bitStuff .hamming .checksum ∧ padOf .bitStuff .hamming (bits 10 0) = some 0
      ∧ (chain [.pipeTx, .xfer, .pipeRx] (onPipe 0x125 7 (bits 10 0))).map seen
        = some (bits 10 0, 0x00000006, 0) := by decide +kernel

theorem witness_UnitCommandChainEqualsPipeTx :
    selects (onPipe 0x115 7 (bits 3 0b101)) .bitStuff .hamming .parity
      ∧ (Framing.bitStuff, Instr.bitEnc) ∈ [(Framing.charCount, Instr.ccEnc), (.bitStuff, .bitEnc), (.byteStuff, .byteEnc)]
      ∧ (Detection.parity, Instr.parEnc) ∈ [(Detection.parity, Instr.parEnc), (.checksum, .csEnc), (.crc32, .crcEnc)]
      ∧ (chain [.bitEnc, .xfer, .hamEnc, .xfer, .parEnc] (onPipe 0x115 7 (bits 3 0b101))).map State.outString
      = (chain [.pipeTx] (onPipe 0x115 7 (bits 3 0b101))).map State.outString
      ∧ ((chain [.pipeTx] (onPipe 0x115 7 (bits 3 0b101))).map State.outLen) = some 25 := by decide

end Sys2Proof.Tests
end

section
/-! ## The end-around-carry fold, the powers of two and the covering sets (R17, R19, R20) -/
namespace Sys2Proof.Machine

/-- One turn of the fold adds the low byte to the rest. -/
theorem foldTurn_eq (v : Nat) : (v &&& 0xFF) + (v >>> 8) = v % 256 + v / 256 := by
  rw [show 0xFF = 2 ^ 8 - 1 from rfl, Nat.and_two_pow_sub_one_eq_mod, Nat.shiftRight_eq_div_pow]

/-- A turn of the fold lowers v, and keeps it mod 255 and other than 0: enough fuel reaches the representative of v in 1..255. -/
theorem fold8Loop_eq (fuel v : Nat) (h : v ≤ fuel) : fold8Loop fuel v = if v = 0 then 0 else 1 + (v - 1) % 255 := by
  induction fuel generalizing v with
  | zero => simp [fold8Loop, Nat.le_zero.mp h]
  | succ fuel ih =>
    rw [fold8Loop, foldTurn_eq]
    split
    · rw [ih _ (by omega)]
      split_ifs <;> omega
    · split_ifs <;> omega

theorem fold8_eq (v : Nat) : fold8 v = if v = 0 then 0 else 1 + (v - 1) % 255 := fold8Loop_eq v v le_rfl

/-- Settles O50 from the closed form of the fold. -/
theorem fold8IsTheEndAroundCarry : Obligations.Fold8IsTheEndAroundCarry := by
  intro v
  rw [fold8_eq]
  split_ifs <;> omega

theorem isPow2_iff (j : Nat) : isPow2 j = true ↔ ∃ i, j = 2 ^ i := by
  rw [isPow2, beq_iff_eq]
  constructor
  · exact fun h => ⟨_, h⟩
  · rintro ⟨i, rfl⟩
    rw [Nat.log2_two_pow]

/-- The covering set of 2^i holds the positions whose bit i is set (R20). -/
theorem covers_two_pow (i j : Nat) : covers (2 ^ i) j = j.testBit i := by
  rw [covers, Nat.and_two_pow]
  cases j.testBit i <;> simp

/-- Bit i of j is set exactly when j lies in an odd-numbered run of length 2^i. -/
theorem testBit_iff_mem_run (i j : Nat) :
    j.testBit i = true ↔ ∃ k, 2 ^ i + 2 * k * 2 ^ i ≤ j ∧ j ≤ 2 * 2 ^ i - 1 + 2 * k * 2 ^ i := by
  have hpos : 0 < 2 ^ i := Nat.two_pow_pos i
  have hrun (k : Nat) : j / 2 ^ i = 2 * k + 1 ↔ 2 ^ i + 2 * k * 2 ^ i ≤ j ∧ j ≤ 2 * 2 ^ i - 1 + 2 * k * 2 ^ i := by
    rw [Nat.div_eq_iff hpos, Nat.add_mul, Nat.one_mul]
    omega
  simp only [← hrun, Nat.testBit_eq_decide_div_mod_eq, decide_eq_true_eq]
  constructor
  · exact fun h => ⟨j / 2 ^ i / 2, by omega⟩
  · rintro ⟨k, hk⟩
    omega

/-- Settles O53: `is_pow2` compares with the power of the top bit, and a covering set is read bit by bit. -/
theorem powersOfTwoAndCoveringRuns : Obligations.PowersOfTwoAndCoveringRuns :=
  ⟨fun j _ => isPow2_iff j, fun i j => by rw [covers_two_pow, testBit_iff_mem_run]⟩

end Sys2Proof.Machine
end

section
/-! ## The carry-less product -/
namespace Sys2Proof.Pseudocode

/-- `carrylessMul` over the bits of `a` below `n` only. -/
def carrylessMulBelow (n a b : Nat) : Nat :=
  (List.range n).foldl (fun acc i => if a.testBit i then acc ^^^ (b <<< i) else acc) 0

@[simp] theorem carrylessMulBelow_zero (a b : Nat) : carrylessMulBelow 0 a b = 0 := rfl

theorem carrylessMulBelow_succ (n a b : Nat) :
    carrylessMulBelow (n + 1) a b = carrylessMulBelow n a b ^^^ (if a.testBit n then b <<< n else 0) := by
  rw [carrylessMulBelow, List.range_succ, List.foldl_append]
  cases h : a.testBit n <;> simp [h, carrylessMulBelow]

/-- Bits above the top bit of `a` add nothing, so any bound past it gives the product. -/
theorem carrylessMulBelow_eq {n a : Nat} (h : a < 2 ^ n) (b : Nat) : carrylessMulBelow n a b = carrylessMul a b := by
  have hadd (m k : Nat) (hm : a < 2 ^ m) : carrylessMulBelow (m + k) a b = carrylessMulBelow m a b := by
    induction k with
    | zero => rfl
    | succ k ih =>
      have htop : a.testBit (m + k) = false :=
        Nat.testBit_lt_two_pow (hm.trans_le (Nat.pow_le_pow_right Nat.two_pos (Nat.le_add_right m k)))
      rw [← Nat.add_assoc, carrylessMulBelow_succ, ih, htop]
      simp
  calc carrylessMulBelow n a b
      _ = carrylessMulBelow (n + (a.log2 + 1)) a b := (hadd n _ h).symm
      _ = carrylessMulBelow (a.log2 + 1) a b := by rw [Nat.add_comm, hadd _ n Nat.lt_log2_self]

@[simp] theorem carrylessMul_zero (b : Nat) : carrylessMul 0 b = 0 := by simp [carrylessMul]

theorem carrylessMulBelow_xor (n a c b : Nat) :
    carrylessMulBelow n (a ^^^ c) b = carrylessMulBelow n a b ^^^ carrylessMulBelow n c b := by
  induction n with
  | zero => simp
  | succ n ih =>
    have hterm : (if (a ^^^ c).testBit n then b <<< n else 0)
        = (if a.testBit n then b <<< n else 0) ^^^ (if c.testBit n then b <<< n else 0) := by
      rw [Nat.testBit_xor]
      cases a.testBit n <;> cases c.testBit n <;> simp
    simp only [carrylessMulBelow_succ, ih, hterm]
    ac_rfl

/-- The product distributes over XOR, which is the addition of polynomials over GF(2). -/
theorem carrylessMul_xor (a c b : Nat) : carrylessMul (a ^^^ c) b = carrylessMul a b ^^^ carrylessMul c b := by
  have ha : a < 2 ^ (a + c) := a.lt_two_pow_self.trans_le (Nat.pow_le_pow_right Nat.two_pos (Nat.le_add_right a c))
  have hc : c < 2 ^ (a + c) := c.lt_two_pow_self.trans_le (Nat.pow_le_pow_right Nat.two_pos (Nat.le_add_left c a))
  rw [← carrylessMulBelow_eq ha, ← carrylessMulBelow_eq hc, ← carrylessMulBelow_eq (Nat.xor_lt_two_pow ha hc),
    carrylessMulBelow_xor]

theorem carrylessMulBelow_two_pow {m n : Nat} (h : m ≤ n) (b : Nat) : carrylessMulBelow m (2 ^ n) b = 0 := by
  induction m with
  | zero => rfl
  | succ m ih => simp [carrylessMulBelow_succ, ih (by omega), show n ≠ m by omega]

theorem carrylessMul_two_pow (k b : Nat) : carrylessMul (2 ^ k) b = b <<< k := by
  rw [← carrylessMulBelow_eq (Nat.pow_lt_pow_succ Nat.one_lt_two), carrylessMulBelow_succ,
    carrylessMulBelow_two_pow le_rfl]
  simp

theorem carrylessMulBelow_lt {b d : Nat} (h : b < 2 ^ (d + 1)) (n a : Nat) : carrylessMulBelow n a b < 2 ^ (n + d) := by
  induction n with
  | zero => simp
  | succ n ih =>
    have hlow : carrylessMulBelow n a b < 2 ^ (n + 1 + d) := ih.trans (Nat.pow_lt_pow_right Nat.one_lt_two (by omega))
    have hterm : (if a.testBit n then b <<< n else 0) < 2 ^ (n + 1 + d) := by
      split
      · rw [Nat.shiftLeft_eq, show n + 1 + d = d + 1 + n by omega, Nat.pow_add _ (d + 1)]
        exact Nat.mul_lt_mul_of_pos_right h (Nat.two_pow_pos n)
      · exact Nat.two_pow_pos _
    rw [carrylessMulBelow_succ]
    exact Nat.xor_lt_two_pow hlow hterm

/-- A product with a polynomial of degree d has at least that degree, unless it is 0: the top bits' product is its top bit. -/
theorem two_pow_le_carrylessMul {a b d : Nat} (ha : a ≠ 0) (hlt : b < 2 ^ (d + 1)) (hd : b.testBit d = true) :
    2 ^ d ≤ carrylessMul a b := by
  have htop : (carrylessMul a b).testBit (a.log2 + d) = true := by
    rw [← carrylessMulBelow_eq Nat.lt_log2_self, carrylessMulBelow_succ, Nat.testBit_log2 ha, Nat.testBit_xor,
      Nat.testBit_lt_two_pow (carrylessMulBelow_lt hlt a.log2 a)]
    simp [hd]
  exact (Nat.pow_le_pow_right Nat.two_pos (Nat.le_add_left d a.log2)).trans (Nat.ge_two_pow_of_testBit htop)

end Sys2Proof.Pseudocode
end

section
/-! ## The CRC remainder (R18) -/
namespace Sys2Proof.Machine
open Sys2Proof.Pseudocode

/-- Two numbers with the same top bit n cancel it. -/
theorem xor_lt_of_same_top {x y n : Nat} (hx : x < 2 ^ (n + 1)) (hy : y < 2 ^ (n + 1))
    (hxn : x.testBit n = true) (hyn : y.testBit n = true) : x ^^^ y < 2 ^ n := by
  apply Nat.lt_pow_two_of_testBit
  intro i hi
  rw [Nat.testBit_xor]
  obtain rfl | hlt := hi.eq_or_lt
  · rw [hxn, hyn, Bool.xor_self]
  · have hle : 2 ^ (n + 1) ≤ 2 ^ i := Nat.pow_le_pow_right Nat.two_pos hlt
    rw [Nat.testBit_lt_two_pow (hx.trans_le hle), Nat.testBit_lt_two_pow (hy.trans_le hle), Bool.xor_self]

theorem G_lt : G < 2 ^ (32 + 1) := by decide

theorem G_testBit_top : G.testBit 32 = true := by decide

/-- One turn of the division clears the most significant set bit. -/
theorem crcTurn_lt {v : Nat} (h : 2 ^ 32 ≤ v) : v ^^^ (G <<< (v.log2 - 32)) < 2 ^ v.log2 := by
  have hv : v ≠ 0 := by omega
  have hlog : 32 ≤ v.log2 := (Nat.le_log2 hv).mpr h
  have hG : G <<< (v.log2 - 32) < 2 ^ (v.log2 + 1) := by
    rw [Nat.shiftLeft_eq, show v.log2 + 1 = 32 + 1 + (v.log2 - 32) by omega, Nat.pow_add _ (32 + 1)]
    exact Nat.mul_lt_mul_of_pos_right G_lt (Nat.two_pow_pos _)
  have hGtop : (G <<< (v.log2 - 32)).testBit v.log2 = true := by
    rw [Nat.testBit_shiftLeft, Nat.sub_sub_self hlog, G_testBit_top]
    simp
  exact xor_lt_of_same_top Nat.lt_log2_self hG (Nat.testBit_log2 hv) hGtop

theorem crcRemLoop_lt (fuel v : Nat) (h : v < 2 ^ (fuel + 32)) : crcRemLoop fuel v < 2 ^ 32 := by
  induction fuel generalizing v with
  | zero => simpa [crcRemLoop] using h
  | succ fuel ih =>
    rw [crcRemLoop]
    split
    case isTrue hge =>
      have hlog : v.log2 ≤ fuel + 32 := by
        have := (Nat.log2_lt (k := fuel + 1 + 32) (by omega)).mpr h
        omega
      exact ih _ ((crcTurn_lt hge).trans_le (Nat.pow_le_pow_right Nat.two_pos hlog))
    case isFalse hlt => omega

theorem crcRem_lt (v : Nat) : crcRem v < 2 ^ 32 :=
  crcRemLoop_lt _ v (Nat.lt_log2_self.trans_le (Nat.pow_le_pow_right Nat.two_pos (Nat.le_add_right _ 32)))

/-- Every turn of the division adds a multiple of G. -/
theorem exists_quotient_crcRemLoop (fuel v : Nat) : ∃ q, v = carrylessMul q G ^^^ crcRemLoop fuel v := by
  induction fuel generalizing v with
  | zero => exact ⟨0, by simp [crcRemLoop]⟩
  | succ fuel ih =>
    rw [crcRemLoop]
    split
    · obtain ⟨q, hq⟩ := ih (v ^^^ (G <<< (v.log2 - 32)))
      refine ⟨2 ^ (v.log2 - 32) ^^^ q, ?_⟩
      rw [carrylessMul_xor, carrylessMul_two_pow, Nat.xor_assoc, ← hq, Nat.xor_comm v, Nat.xor_xor_cancel_left]
    · exact ⟨0, by simp⟩

theorem exists_quotient_crcRem (v : Nat) : ∃ q, v = carrylessMul q G ^^^ crcRem v := exists_quotient_crcRemLoop _ v

/-- Two remainders below 2^32 differ by a multiple of G below 2^32, which is 0. -/
theorem remainder_unique {q p r s : Nat} (hr : r < 2 ^ 32) (hs : s < 2 ^ 32)
    (h : carrylessMul q G ^^^ r = carrylessMul p G ^^^ s) : r = s := by
  have hdiff : carrylessMul (q ^^^ p) G = r ^^^ s := by
    rw [carrylessMul_xor, ← Nat.xor_xor_cancel_right (carrylessMul q G) r, h, Nat.xor_right_comm,
      Nat.xor_right_comm _ s, Nat.xor_self, Nat.zero_xor, Nat.xor_comm]
  have hqp : q ^^^ p = 0 := by
    by_contra hne
    have hge : 2 ^ 32 ≤ r ^^^ s := hdiff ▸ two_pow_le_carrylessMul hne G_lt G_testBit_top
    exact absurd (Nat.xor_lt_two_pow hr hs) (Nat.not_lt.mpr hge)
  rw [hqp, carrylessMul_zero] at hdiff
  exact Nat.xor_eq_zero_iff.mp hdiff.symm

/-- The remainder below 2^32 of v on division by G is `crcRem v`. -/
theorem eq_crcRem {v q r : Nat} (hr : r < 2 ^ 32) (h : v = carrylessMul q G ^^^ r) : r = crcRem v := by
  obtain ⟨p, hp⟩ := exists_quotient_crcRem v
  exact remainder_unique hr (crcRem_lt v) (h.symm.trans hp)

/-- Settles O51: the division keeps the residue class, ends below 2^32, and remainders there are unique. -/
theorem crcRemIsThePolynomialRemainder : Obligations.CrcRemIsThePolynomialRemainder :=
  fun v => ⟨crcRem_lt v, exists_quotient_crcRem v, fun _ _ hr h => eq_crcRem hr h⟩

end Sys2Proof.Machine
end

section
/-! ## The reserved offsets and fields (R38), and the acceptance of a command (R41) -/
namespace Sys2Proof.Machine

/-- Offsets `0x034` to `0xFFFF` name no register (R26, R38). -/
theorem targetOf_reserved {off : Nat} (hlo : 0x034 ≤ off) (hhi : off < 0x10000) : targetOf off = .reserved := by
  obtain ⟨w, hw⟩ : ∃ w, off / 4 = w + 13 := ⟨off / 4 - 13, by omega⟩
  simp only [targetOf, Nat.mod_eq_of_lt hhi, Nat.div_eq_of_lt hhi, hw]
  rfl

/-- A word made of a narrower field has no bit in common with a mask that is 0 over the field. -/
theorem setWidth_and_eq_zero {n : Nat} (x : BitVec n) {mask : Word} (h : mask.setWidth n = 0) : x.setWidth 32 &&& mask = 0 := by
  ext i hi
  have hmask : i < n → mask[i] = false := by simpa [BitVec.getLsbD_eq_getElem hi] using congrArg (·.getLsbD i) h
  by_cases hin : i < n
  · simp [hmask hin]
  · simp [BitVec.getLsbD_of_ge x i (Nat.le_of_not_lt hin)]

/-- Two words cut at the same place have no bit in common when their parts have none. -/
theorem append_and_append_eq_zero {m n : Nat} {x a : BitVec m} {y b : BitVec n} (hhi : x &&& a = 0#m) (hlo : y &&& b = 0#n) :
    (x ++ y) &&& (a ++ b) = 0#(m + n) := by
  rw [BitVec.and_append, hhi, hlo, BitVec.zero_append_zero]

/-- The mask of R28's reserved bits, cut where the STATUS word is. -/
theorem statusWord_and_reserved (s : State) : s.statusWord &&& 0xFFFF40E0 = 0 := by
  have hmask : (0xFFFF40E0 : Word)
      = BitVec.allOnes 16 ++ 0#1 ++ 1#1 ++ 0#2 ++ 0#4 ++ BitVec.allOnes 3 ++ 0#2 ++ 0#1 ++ 0#1 ++ 0#1 := rfl
  rw [hmask]
  apply_rules [append_and_append_eq_zero, BitVec.zero_and, BitVec.and_zero]

/-- The mask of R29's reserved bits, cut where the DIAG word is. -/
theorem Diag.word_and_reserved (d : Diag) : d.word &&& 0xFFFFFF80 = 0 := by
  have hmask : (0xFFFFFF80 : Word)
      = BitVec.allOnes 25 ++ 0#1 ++ 0#1 ++ 0#1 ++ 0#1 ++ 0#1 ++ 0#1 ++ 0#1 := rfl
  rw [hmask]
  apply_rules [append_and_append_eq_zero, BitVec.zero_and, BitVec.and_zero]

/-- The mask of R30's reserved bits, cut where the CONFIG word is. -/
theorem ConfigReg.word_and_reserved (c : ConfigReg) : c.word &&& 0xFFFFFE80 = 0 := by
  have hmask : (0xFFFFFE80 : Word) = BitVec.allOnes 23 ++ 0#1 ++ 1#1 ++ 0#3 ++ 0#2 ++ 0#2 := rfl
  rw [hmask]
  apply_rules [append_and_append_eq_zero, BitVec.zero_and, BitVec.and_zero]

/-- The mask of R31's reserved bits, cut where the PADS word is. -/
theorem PadsReg.word_and_reserved (p : PadsReg) : p.word &&& 0x0000FF00 = 0 := by
  have hmask : (0x0000FF00 : Word) = 0#16 ++ BitVec.allOnes 8 ++ 0#8 := rfl
  rw [hmask]
  apply_rules [append_and_append_eq_zero, BitVec.zero_and, BitVec.and_zero]

theorem lengthWord_and_reserved (n : BitVec 20) : lengthWord n &&& 0xFFF00000 = 0 := setWidth_and_eq_zero n rfl

/-- A field that lies inside a mask is not changed by it. -/
theorem extractLsb'_and_of_allOnes {a n : Nat} {mask : Word} (h : mask.extractLsb' a n = BitVec.allOnes n) (v : Word) :
    (v &&& mask).extractLsb' a n = v.extractLsb' a n := by
  rw [BitVec.extractLsb'_and, h, BitVec.and_allOnes]

/-- A bit that a mask selects is not changed by it. -/
theorem getLsbD_and_of_true {i : Nat} {mask : Word} (h : mask.getLsbD i = true) (v : Word) :
    (v &&& mask).getLsbD i = v.getLsbD i := by
  rw [BitVec.getLsbD_and, h, Bool.and_true]

theorem ConfigReg.ofWord_and_fields (v : Word) : ConfigReg.ofWord (v &&& 0x0000017F) = ConfigReg.ofWord v := by
  rw [ConfigReg.ofWord, ConfigReg.ofWord, ConfigReg.mk.injEq]
  exact ⟨extractLsb'_and_of_allOnes rfl v, extractLsb'_and_of_allOnes rfl v, extractLsb'_and_of_allOnes rfl v,
    getLsbD_and_of_true rfl v⟩

theorem PadsReg.ofWord_and_fields (v : Word) : PadsReg.ofWord (v &&& 0xFFFF00FF) = PadsReg.ofWord v := by
  rw [PadsReg.ofWord, PadsReg.ofWord, PadsReg.mk.injEq]
  exact ⟨extractLsb'_and_of_allOnes rfl v, extractLsb'_and_of_allOnes rfl v⟩

theorem lengthOfWord_and_field (v : Word) : lengthOfWord (v &&& 0x000FFFFF) = lengthOfWord v :=
  extractLsb'_and_of_allOnes rfl v

theorem State.writeStatus_and_overrun (s : State) (v : Word) : s.writeStatus (v &&& 0x00008000) = s.writeStatus v := by
  rw [State.writeStatus, State.writeStatus, getLsbD_and_of_true rfl]

/-- Settles O12: reserved offsets name no register, each register's word is 0 under its reserved mask, and each write looks at
its fields alone. -/
theorem reservedOffsetsAndFieldsReadZeroAndIgnoreWrites : Obligations.ReservedOffsetsAndFieldsReadZeroAndIgnoreWrites := by
  intro s v
  refine ⟨fun off hlo hhi _ => ?offsets, statusWord_and_reserved s, s.diag.word_and_reserved, s.config.word_and_reserved,
    s.pads.word_and_reserved, ?lengths, setWidth_and_eq_zero s.csumValue rfl, ?config, ?pads, ?inLen, ?status⟩
  case offsets =>
    rw [targetOf_reserved hlo hhi]
    exact ⟨rfl, rfl⟩
  case lengths =>
    intro tgt htgt
    fin_cases htgt <;> exact lengthWord_and_reserved _
  case config => simp only [State.writeTarget, State.writeConfig, ConfigReg.ofWord_and_fields]
  case pads => simp only [State.writeTarget, State.writePads, PadsReg.ofWord_and_fields]
  case inLen => simp only [State.writeTarget, State.writeInLen, lengthOfWord_and_field]
  case status => exact (s.writeStatus_and_overrun v).symm

/-- An aligned 32-bit write in the aperture has the effect of its target (R49). -/
theorem hostAccess_write_ok {s : State} {off : Nat} (hwf : s.params.wf) (ho : off < apertureBytes) (ha : off % 4 = 0) (v : Word) :
    hostAccess s (.write (s.params.blockBase + off) 4 v) = .next ((s.writeTarget v (targetOf off)).respond .ack) := by
  obtain ⟨hbase, -⟩ := hwf
  rw [hostAccess, busOffset_ok s.params off (by omega) ho ha]

/-- Settles O8: the access reaches CMD, and an IDLE block accepts the word. -/
theorem cmdWriteWhileIdleIsAccepted : Obligations.CmdWriteWhileIdleIsAccepted := by
  intro s v hwf hidle
  have haccept : s.writeTarget v (targetOf 0x000) = s.accept v := State.whenIdle_idle hidle (·.accept v)
  refine ⟨(s.accept v).respond .ack, ?_, by simp [State.keepsResults, State.keepsTraces]⟩
  rw [hostAccess_write_ok hwf (by decide) rfl, haccept]

end Sys2Proof.Machine
end

section
/-! ## The completion of XFER (R78) -/
namespace Sys2Proof.Machine

theorem exec_xfer_of_fits {s : State} (h : s.outLen.toNat ≤ s.params.maxInBits) :
    exec .xfer s = .next ((s.writeIn s.outString).writeResult {}) := by
  rw [exec, execXfer, if_neg (Nat.not_lt.mpr h)]

theorem exec_xfer_of_too_long {s : State} (h : s.params.maxInBits < s.outLen.toNat) :
    exec .xfer s = .next (s.writeResult (Res.abort .capacity none {})) := by
  rw [exec, execXfer, if_pos h]

/-- The result registers hold the record written to them, where its syndrome fits its register. -/
theorem State.writeResult_reports (s : State) {r : Res} (hsyn : r.syndrome < 2 ^ 20) : (s.writeResult r).reports r :=
  ⟨rfl, rfl, rfl, rfl, rfl, rfl, rfl, Nat.mod_eq_of_lt hsyn, rfl, rfl⟩

/-- IN holds the string written to it, where its length fits IN_LEN. -/
theorem State.writeIn_holdsIn (s : State) {x : Bits} (h : x.length < 2 ^ 20) : (s.writeIn x).holdsIn x :=
  ⟨Nat.mod_eq_of_lt h, fun i hi => by simpa using BitMem.get_write_inside s.inBuf 0 x i hi⟩

/-- A write of IN leaves every bit past the new IN_LEN alone. -/
theorem State.writeIn_keepsBeyond (s : State) {x : Bits} (h : x.length < 2 ^ 20) :
    keepsBeyond s.inBuf (s.writeIn x).inBuf (s.writeIn x).inLen := by
  obtain ⟨hlen, -⟩ := s.writeIn_holdsIn h
  intro i hi
  exact BitMem.get_write_outside s.inBuf 0 x i (.inr (by omega))

/-- XFER's operand is as long as a 20-bit register says, so its length fits IN_LEN. -/
theorem State.outString_length_lt (s : State) : s.outString.length < 2 ^ 20 := by
  rw [State.outString_length]
  exact s.outLen.isLt

/-- Settles O25: a string that fits is one write of IN under RES0, a longer one writes the CAPACITY abort alone. -/
theorem xferCopiesOutToIn : Obligations.XferCopiesOutToIn := by
  intro s
  refine ⟨fun hfits => ?copied, fun hlong => ?refused⟩
  case copied =>
    exact ⟨_, exec_xfer_of_fits hfits, State.writeResult_reports _ (Nat.two_pow_pos 20), s.writeIn_holdsIn s.outString_length_lt,
      s.writeIn_keepsBeyond s.outString_length_lt, rfl, rfl⟩
  case refused =>
    exact ⟨_, exec_xfer_of_too_long hlong, s.writeResult_reports (Nat.two_pow_pos 20), rfl, rfl, rfl, rfl⟩

end Sys2Proof.Machine
end

section
/-! ## The completion of a unit command (R42, R75) -/
namespace Sys2Proof.Machine

/-- A unit command whose engine gives a record publishes it, or the CAPACITY abort where it does not fit OUT. -/
theorem State.completeUnit_publishes {s : State} {engine : Engine} {r : Res} (hwf : s.params.wf)
    (hin : s.inLen.toNat ≤ s.params.maxInBits) (hengine : engine s.inString = .ok r) (herr : r.err = none)
    (hsyn : r.syndrome < 2 ^ 20) : (s.completeUnit engine).publishes (withinCapacityWith r.diag s.params r) := by
  obtain ⟨-, -, -, -, hcap⟩ := hwf
  rw [State.completeUnit, unitResult_ok s engine hin hengine herr]
  by_cases hfits : r.out.length ≤ s.params.maxOutBits
  · simp only [withinCapacityWith, if_pos hfits]
    exact s.complete_publishes r (by omega) hsyn
  · simp only [withinCapacityWith, if_neg hfits]
    exact s.complete_publishes _ (Nat.two_pow_pos 20) (Nat.two_pow_pos 20)

/-- The same for an engine that raises no flag. -/
theorem State.completeUnit_publishes_of_no_flags {s : State} {engine : Engine} {r : Res} (hwf : s.params.wf)
    (hin : s.inLen.toNat ≤ s.params.maxInBits) (hengine : engine s.inString = .ok r) (herr : r.err = none)
    (hsyn : r.syndrome < 2 ^ 20) (hdiag : r.diag = {}) :
    (s.completeUnit engine).publishes (withinCapacity s.params r) :=
  withinCapacityWith_of_no_flags s.params r hdiag ▸ State.completeUnit_publishes hwf hin hengine herr hsyn

/-- A unit command whose engine raises `e` publishes the abort (R108). -/
theorem State.completeUnit_publishes_error {s : State} {engine : Engine} {e : HardError}
    (hin : s.inLen.toNat ≤ s.params.maxInBits) (hengine : engine s.inString = .error e) :
    (s.completeUnit engine).publishes { err := some e } := by
  rw [State.completeUnit, unitResult_error s engine hin hengine]
  exact s.complete_publishes _ (Nat.two_pow_pos 20) (Nat.two_pow_pos 20)

end Sys2Proof.Machine
end

section
/-! ## Character-count framing (R79, R80) -/
namespace Sys2Proof.Machine

/-- The octets of the left-padded string are as many as cover the string. -/
theorem length_padLeft8_div (x : Bits) : (padLeft8 x).length / 8 = (x.length + 7) / 8 := by
  rw [length_padLeft8, padLength]
  omega

/-- A number's octet is its low eight bits, the most significant first (R12). -/
theorem bitsOf_ofNat_eight (n : Nat) : bitsOf (BitVec.ofNat 8 n) = (List.range 8).map fun j => n.testBit (7 - j) := by
  refine List.map_congr_left fun j hj => ?_
  have hj : j < 8 := List.mem_range.mp hj
  rw [BitVec.getMsbD_eq_getLsbD, BitVec.getLsbD_ofNat]
  simp [hj, show 7 - j < 8 by omega]

/-- The largest frame has a header and 255 octets (R79). -/
theorem length_ccEnc_frame_le {x : Bits} {n : Nat} (hn : (padLeft8 x).length / 8 = n) (hle : n ≤ 255) :
    (bitsOf (BitVec.ofNat 8 n) ++ padLeft8 x).length ≤ 2048 := by
  have haligned : (padLeft8 x).length % 8 = 0 := by rw [length_padLeft8, padLength_add_mod]
  rw [List.length_append, length_bitsOf]
  omega

/-- Settles O26 by the two outcomes of `cc_enc`; every OUT can hold the largest frame. -/
theorem ccEncPrependsTheOctetCount : Obligations.CcEncPrependsTheOctetCount := by
  intro s hwf hin x n
  refine ⟨s.completeUnit ccEnc, rfl, ?_⟩
  have hn : (padLeft8 x).length / 8 = n := length_padLeft8_div x
  by_cases hle : n ≤ 255
  · have hpad : zeros (8 * n - x.length) ++ x = padLeft8 x := by
      rw [padLeft8, show 8 * n - x.length = padLength x by unfold padLength; omega]
    have henc : ccEnc x = .ok { out := bitsOf (BitVec.ofNat 8 n) ++ padLeft8 x } := hn ▸ ccEnc_ok (hn.trans_le hle)
    have hpub := State.completeUnit_publishes hwf hin henc rfl (Nat.two_pow_pos 20)
    obtain ⟨-, -, -, hcap, -⟩ := hwf
    rw [withinCapacityWith, if_pos ((length_ccEnc_frame_le hn hle).trans hcap)] at hpub
    rwa [if_pos hle, hpad, ← bitsOf_ofNat_eight]
  · rw [if_neg hle]
    exact State.completeUnit_publishes_error hin (ccEnc_large (hn ▸ Nat.lt_of_not_le hle))

/-- `cc_dec` of fewer than eight bits (R80). -/
theorem ccDec_short {f : Bits} (h : f.length < 8) : ccDec f = .error .frameTooShort := by
  simp only [ccDec, if_pos h]

/-- `cc_dec` of at least a header: a truncated frame holds fewer bits than are taken, so all of them are returned (R80). -/
theorem ccDec_ok {f : Bits} (h : 8 ≤ f.length) :
    ccDec f = .ok { out := (f.drop 8).take (8 * val (f.take 8)),
                    diag := { lenMismatch := decide (f.length < 8 + 8 * val (f.take 8)) } } := by
  simp only [ccDec, slice, List.drop_zero, if_neg (Nat.not_lt.mpr h)]
  by_cases hshort : f.length < 8 + 8 * val (f.take 8)
  · have hall : (f.drop 8).length ≤ 8 * val (f.take 8) := by rw [List.length_drop]; omega
    rw [if_pos (by omega), List.take_length, List.take_of_length_le hall, decide_eq_true hshort]
  · rw [if_neg (by omega), List.drop_take, Nat.add_sub_cancel_left, decide_eq_false hshort]

/-- Settles O27 by the two outcomes of `cc_dec`. -/
theorem ccDecReturnsTheDeclaredOctets : Obligations.CcDecReturnsTheDeclaredOctets := by
  intro s hwf hin f n
  refine ⟨s.completeUnit ccDec, rfl, ?_⟩
  by_cases hshort : f.length < 8
  · rw [if_pos hshort]
    exact State.completeUnit_publishes_error hin (ccDec_short hshort)
  · rw [if_neg hshort]
    exact State.publishes_withinCapacityWith
      (State.completeUnit_publishes hwf hin (ccDec_ok (Nat.not_lt.mp hshort)) rfl (Nat.two_pow_pos 20))

/-- A frame of at most 255 octets declares its own payload, so `cc_dec` returns it whole (R80, R85). -/
theorem ccDec_frame {p : Bits} (haligned : p.length % 8 = 0) (hle : p.length / 8 ≤ 255) :
    ccDec (bitsOf (BitVec.ofNat 8 (p.length / 8)) ++ p) = .ok { out := p } := by
  have hheader : val (bitsOf (BitVec.ofNat 8 (p.length / 8))) = p.length / 8 := by
    rw [val_bitsOf, BitVec.toNat_ofNat, Nat.mod_eq_of_lt (by omega)]
  rw [ccDec_ok (by simp), List.take_left' (length_bitsOf _), List.drop_left' (length_bitsOf _), hheader,
    show 8 * (p.length / 8) = p.length by omega]
  simp

/-- `cc_dec` undoes `cc_enc` up to the left pad, for at most 2040 bits (R80). -/
theorem ccDec_ccEnc {x : Bits} (h : x.length ≤ 2040) :
    ∃ r, ccEnc x = .ok r ∧ ccDec r.out = .ok { out := padLeft8 x } := by
  have hle : (padLeft8 x).length / 8 ≤ 255 := by rw [length_padLeft8_div]; omega
  have haligned : (padLeft8 x).length % 8 = 0 := by rw [length_padLeft8, padLength_add_mod]
  exact ⟨_, ccEnc_ok hle, ccDec_frame haligned hle⟩

end Sys2Proof.Machine
end

section
/-! ## Byte-stuffing (R81, R82) -/
namespace Sys2Proof.Machine
open Sys2Proof.Pseudocode

/-! ### The encoder -/

theorem append_stuffOctet (acc : List Byte) (v : Byte) :
    acc ++ stuffOctet v = if v = 0x7E then acc ++ [0x7D, 0x7E] else if v = 0x7D then acc ++ [0x7D, 0x7D] else acc ++ [v] := by
  rw [stuffOctet, apply_ite (acc ++ ·), apply_ite (acc ++ ·)]
  rfl

theorem length_stuffOctet (v : Byte) : (stuffOctet v).length = 1 + if v = 0x7E ∨ v = 0x7D then 1 else 0 := by
  by_cases hflag : v = FLAG
  · simp [stuffOctet, hflag, FLAG]
  · by_cases hesc : v = ESC
    · simp [stuffOctet, hesc, ESC, FLAG]
    · have hplain : ¬ (v = 0x7E ∨ v = 0x7D) := not_or.mpr ⟨hflag, hesc⟩
      simp only [stuffOctet, if_neg hflag, if_neg hesc, if_neg hplain, List.length_singleton]

/-- Each special octet adds one escape to the body (R81). -/
theorem length_flatMap_stuffOctet (o : List Byte) :
    (o.flatMap stuffOctet).length = o.length + o.countP (fun v => v = 0x7E ∨ v = 0x7D) := by
  induction o with
  | nil => rfl
  | cons v o ih =>
    rw [List.flatMap_cons, List.length_append, ih, length_stuffOctet, List.length_cons, List.countP_cons]
    simp only [decide_eq_true_eq]
    omega

/-- Settles O28: the spec's loop is the model's flatMap, and the length adds up octet by octet. -/
theorem byteEncEscapesFlagsAndEscapes : Obligations.ByteEncEscapesFlagsAndEscapes := by
  intro s hwf hin o body out
  have hbody : body = FLAG :: o.flatMap stuffOctet := by
    simp only [body, ← append_stuffOctet, List.foldl_append_eq_append, List.flatMap_def]
    rfl
  refine ⟨?_, s.completeUnit byteEnc, rfl, ?_⟩
  · rw [length_fromOctets, hbody, List.length_append, List.length_cons, length_flatMap_stuffOctet, List.length_singleton]
    omega
  · have henc : byteEnc s.inString = .ok { out := out } := by
      rw [byteEnc, show out = fromOctets (body ++ [0x7E]) from rfl, hbody]
      rfl
    exact State.completeUnit_publishes_of_no_flags hwf hin henc rfl (Nat.two_pow_pos 20) rfl

/-! ### The scan of the decoder, one octet at a time -/

@[simp] theorem byteScan_nil : byteScan [] = ([], {}) := rfl

/-- A dangling ESC is dropped (R82). -/
@[simp] theorem byteScan_dangling_escape : byteScan [ESC] = ([], { incompleteEsc := true }) := rfl

/-- The octet after an ESC is taken literally (R82). -/
@[simp] theorem byteScan_escape (w : Byte) (rest : List Byte) :
    byteScan (ESC :: w :: rest) = (w :: (byteScan rest).1, (byteScan rest).2) := by
  rw [byteScan, if_pos rfl]

/-- A bare FLAG is passed through and raises its flag (R82). -/
@[simp] theorem byteScan_flag (rest : List Byte) :
    byteScan (FLAG :: rest) = (FLAG :: (byteScan rest).1, Diag.or { bareFlag := true } (byteScan rest).2) := by
  cases rest with
  | nil => rfl
  | cons w rest => rw [byteScan, if_neg (by decide), if_pos rfl]

/-- Any other octet is passed through (R82). -/
theorem byteScan_plain {v : Byte} (hesc : v ≠ ESC) (hflag : v ≠ FLAG) (rest : List Byte) :
    byteScan (v :: rest) = (v :: (byteScan rest).1, (byteScan rest).2) := by
  cases rest with
  | nil => simp only [byteScan, if_neg hesc, if_neg hflag]
  | cons w rest => rw [byteScan, if_neg hesc, if_neg hflag]

/-- The scan raises no flag but INCOMPLETE_ESC and BARE_FLAG (R82). -/
theorem byteScan_diag (o : List Byte) :
    (byteScan o).2 = { incompleteEsc := (byteScan o).2.incompleteEsc, bareFlag := (byteScan o).2.bareFlag } := by
  induction o using byteScan.induct with
  | case1 | case2 | case3 => rfl
  | case4 v hesc hflag => rw [byteScan_plain hesc hflag, byteScan_nil]
  | case5 w rest ih => rw [byteScan_escape, ← ih]
  | case6 w rest _ ih => rw [byteScan_flag, ih]; rfl
  | case7 v w rest hesc hflag ih => rw [byteScan_plain hesc hflag, ← ih]

/-- The spec's loop from index i on is the model's scan of the rest, its results added to those so far (R82). -/
theorem byteDecLoop_eq (body : List Byte) (fuel i : Nat) (out : List Byte) (incomplete bare : Bool)
    (h : body.length ≤ i + fuel) :
    byteDecLoop body fuel i (out, incomplete, bare)
      = (out ++ (byteScan (body.drop i)).1, incomplete || (byteScan (body.drop i)).2.incompleteEsc,
          bare || (byteScan (body.drop i)).2.bareFlag) := by
  induction fuel generalizing i out incomplete bare with
  | zero => simp [byteDecLoop, List.drop_eq_nil_of_le (show body.length ≤ i from h)]
  | succ fuel ih =>
    rw [byteDecLoop]
    by_cases hi : i < body.length
    case neg => simp [hi, List.drop_eq_nil_of_le (Nat.le_of_not_lt hi)]
    have hhead : body.getD i 0 = body[i] := List.getD_eq_getElem _ _ hi
    rw [if_pos hi, hhead, List.drop_eq_getElem_cons hi]
    by_cases hesc : body[i] = ESC
    · rw [if_pos hesc, hesc]
      by_cases hlast : i = body.length - 1
      · rw [if_pos hlast, ih _ _ _ _ (by omega), List.drop_eq_nil_of_le (by omega)]
        simp
      · have hnext : i + 1 < body.length := by omega
        rw [if_neg hlast, ih _ _ _ _ (by omega), List.getD_eq_getElem _ _ hnext, List.drop_eq_getElem_cons hnext,
          byteScan_escape]
        simp
    · rw [if_neg hesc]
      by_cases hflag : body[i] = FLAG
      · rw [if_pos hflag, hflag, ih _ _ _ _ (by omega)]
        simp [Diag.or]
      · rw [if_neg hflag, ih _ _ _ _ (by omega), byteScan_plain hesc hflag]
        simp

/-! ### The delimiters -/

/-- Whether `byte_dec` strips its two delimiters: at least two octets, FLAG at both ends (R82). -/
def isDelimited (o : List Byte) : Bool :=
  decide (2 ≤ o.length ∧ o.getD 0 0 = FLAG ∧ o.getD (o.length - 1) 0 = FLAG)

/-- The body without its delimiters, or the whole with the flag SHORT or MISSING_DELIM (R82). -/
theorem byteBody_eq (o : List Byte) :
    byteBody o = (if isDelimited o then (o.drop 1).take (o.length - 2) else o,
      { short := decide (o.length < 2), missingDelim := decide (2 ≤ o.length) && !isDelimited o }) := by
  by_cases hshort : o.length < 2
  · simp [byteBody, isDelimited, hshort, Nat.not_le.mpr hshort]
  · have hlen : 2 ≤ o.length := Nat.le_of_not_lt hshort
    have hends : (o.head? = some FLAG ∧ o.getLast? = some FLAG) ↔ isDelimited o := by
      rw [List.head?_eq_getElem?, List.getLast?_eq_getElem?, List.getElem?_eq_getElem (by omega),
        List.getElem?_eq_getElem (by omega), isDelimited, List.getD_eq_getElem _ _ (by omega),
        List.getD_eq_getElem _ _ (by omega)]
      simp [hlen]
    rw [byteBody, if_neg hshort, if_congr hends rfl rfl, decide_eq_false hshort, decide_eq_true hlen]
    by_cases hdelim : isDelimited o
    · simp [hdelim, List.dropLast_eq_take, Nat.sub_sub]
    · simp [hdelim]

/-- Settles O29: the loop is the scan of the body, and the flags of its three parts never meet. -/
theorem byteDecScansTheBody : Obligations.ByteDecScansTheBody := by
  intro s hwf hin f k o stripped body scan
  have hk : o.length = k := length_octets f
  have hscan : scan = ((byteScan body).1, (byteScan body).2.incompleteEsc, (byteScan body).2.bareFlag) := by
    simpa using byteDecLoop_eq body body.length 0 [] false false (Nat.le_add_left _ _)
  have hstripped : isDelimited o = stripped := by rw [isDelimited, hk]; rfl
  have hbody : byteBody o = (body, { short := decide (k < 2), missingDelim := decide (2 ≤ k) && !stripped }) := by
    rw [byteBody_eq, hstripped, hk]
  have hdec : byteDec f = .ok
      { out := fromOctets scan.1,
        diag := { misalignedTail := decide (f.length % 8 ≠ 0), short := decide (k < 2), missingDelim := decide (2 ≤ k) && !stripped,
                  incompleteEsc := scan.2.1, bareFlag := scan.2.2 } } := by
    simp only [byteDec, show octets f = o from rfl, hbody, hscan]
    rw [byteScan_diag]
    simp [Diag.or, bne, beq_eq_decide]
  exact ⟨s.completeUnit byteDec, rfl,
    State.publishes_withinCapacityWith (State.completeUnit_publishes hwf hin hdec rfl (Nat.two_pow_pos 20))⟩

/-! ### The round trip (R85) -/

theorem byteScan_stuffOctet (v : Byte) (rest : List Byte) :
    byteScan (stuffOctet v ++ rest) = (v :: (byteScan rest).1, (byteScan rest).2) := by
  unfold stuffOctet
  split_ifs with hflag hesc
  · rw [hflag]
    exact byteScan_escape FLAG rest
  · rw [hesc]
    exact byteScan_escape ESC rest
  · exact byteScan_plain hesc hflag rest

/-- The scan undoes the stuffing, octet by octet. -/
theorem byteScan_flatMap_stuffOctet (o : List Byte) : byteScan (o.flatMap stuffOctet) = (o, {}) := by
  induction o with
  | nil => rfl
  | cons v o ih => rw [List.flatMap_cons, byteScan_stuffOctet, ih]

theorem byteBody_delimited (m : List Byte) : byteBody (FLAG :: m ++ [FLAG]) = (m, {}) := by
  simp [byteBody, List.getLast?_cons]

theorem byteDec_byteEnc (x : Bits) : ∃ r, byteEnc x = .ok r ∧ byteDec r.out = .ok { out := padLeft8 x } := by
  refine ⟨_, rfl, ?_⟩
  have haligned : (padLeft8 x).length % 8 = 0 := by rw [length_padLeft8, padLength_add_mod]
  simp only [byteDec, octets_fromOctets, byteBody_delimited, byteScan_flatMap_stuffOctet, length_fromOctets,
    fromOctets_octets _ haligned, Nat.mul_mod_right]
  rfl

end Sys2Proof.Machine
end

section
/-! ## Bit-stuffing (R83, R84) -/
namespace Sys2Proof.Machine
open Sys2Proof.Pseudocode

/-! ### The encoder -/

/-- The spec's loop from the state `(out, c)` on appends the stuffing of the rest (R83). -/
theorem foldl_bitEncTurn (x out : Bits) (c : Nat) : (x.foldl bitEncTurn (out, c)).1 = out ++ stuffBits c x := by
  induction x generalizing out c with
  | nil => simp [stuffBits]
  | cons b x ih =>
    rw [List.foldl_cons]
    cases b with
    | false =>
      rw [show bitEncTurn (out, c) false = (out ++ [false], 0) from rfl, ih]
      simp [stuffBits]
    | true =>
      by_cases hfull : c + 1 = STUFF_RUN
      · rw [show bitEncTurn (out, c) true = (out ++ [true] ++ [false], 0) from if_pos hfull, ih]
        simp [stuffBits, hfull]
      · rw [show bitEncTurn (out, c) true = (out ++ [true], c + 1) from if_neg hfull, ih]
        simp [stuffBits, hfull]

theorem not_ones_prefix_ones_zero {n c : Nat} (hc : c < n) (y : Bits) :
    ¬ List.replicate n true <+: List.replicate c true ++ false :: y := by
  intro hpre
  have hbit := hpre.getElem (i := c) (by simpa using hc)
  rw [List.getElem_replicate, List.getElem_append_right (by simp)] at hbit
  simp at hbit

/-- A run of more than c 1s does not begin before the 0 that follows c 1s, so it lies past that 0. -/
theorem ones_infix_of_infix_ones_zero {n c : Nat} {y : Bits} (hc : c < n)
    (h : List.replicate n true <:+: List.replicate c true ++ false :: y) : List.replicate n true <:+: y := by
  induction c with
  | zero => exact (List.infix_cons_iff.mp h).resolve_left (not_ones_prefix_ones_zero hc y)
  | succ c ih =>
    exact ih (by omega) ((List.infix_cons_iff.mp h).resolve_left (not_ones_prefix_ones_zero hc y))

/-- No six 1s in a row, counting the c < 5 ones that stand before the string (R83). -/
theorem not_six_ones_stuffBits (x : Bits) (c : Nat) (hc : c < 5) :
    ¬ List.replicate 6 true <:+: List.replicate c true ++ stuffBits c x := by
  induction x generalizing c with
  | nil =>
    intro h
    have hlen : 6 ≤ c := by simpa [stuffBits] using h.length_le
    omega
  | cons b x ih =>
    have hzero : ¬ List.replicate 6 true <:+: stuffBits 0 x := ih 0 (by decide)
    have hone (y : Bits) : List.replicate c true ++ true :: y = List.replicate (c + 1) true ++ y := by
      rw [List.replicate_succ', List.append_assoc, List.singleton_append]
    cases b with
    | false =>
      rw [stuffBits]
      exact fun h => hzero (ones_infix_of_infix_ones_zero (by omega) h)
    | true =>
      by_cases hfull : c + 1 = STUFF_RUN
      · rw [stuffBits, if_pos hfull, hone]
        exact fun h => hzero (ones_infix_of_infix_ones_zero (by omega) h)
      · rw [stuffBits, if_neg hfull, hone]
        exact ih (c + 1) (lt_of_le_of_ne hc hfull)

/-- Settles O30: the loop is the model's stuffing, which never lets a run grow past five. -/
theorem bitEncStuffsAfterFiveOnes : Obligations.BitEncStuffsAfterFiveOnes := by
  intro s hwf hin flag body
  have hbody : body = stuffBits 0 s.inString := foldl_bitEncTurn s.inString [] 0
  have henc : bitEnc s.inString = .ok { out := flag ++ body ++ flag } := by rw [hbody]; rfl
  refine ⟨?_, s.completeUnit bitEnc, rfl,
    State.completeUnit_publishes_of_no_flags hwf hin henc rfl (Nat.two_pow_pos 20) rfl⟩
  rw [hbody]
  exact not_six_ones_stuffBits s.inString 0 (by decide)

/-! ### The decoder -/

/-- The spec's loop from the state `(out, c)` on appends the destuffing of the rest (R84). -/
theorem foldl_bitDecTurn (y out : Bits) (c : Nat) : (y.foldl bitDecTurn (out, c)).1 = out ++ destuffBits c y := by
  induction y generalizing out c with
  | nil => simp [destuffBits]
  | cons b y ih =>
    rw [List.foldl_cons]
    cases b with
    | true =>
      rw [show bitDecTurn (out, c) true = (out ++ [true], c + 1) from rfl, ih]
      simp [destuffBits]
    | false =>
      by_cases hstuffed : c = STUFF_RUN
      · rw [show bitDecTurn (out, c) false = (out, 0) from if_pos hstuffed, ih]
        simp [destuffBits, hstuffed]
      · rw [show bitDecTurn (out, c) false = (out ++ [false], 0) from if_neg hstuffed, ih]
        simp [destuffBits, hstuffed]

/-- The leading flag is tested at the start of the input (R84). -/
theorem stripLeading_eq (y : Bits) :
    stripLeading y = (if BITFLAG <+: y then y.drop 8 else y, decide (¬ BITFLAG <+: y)) := by
  have hflag : (8 ≤ y.length ∧ slice y 0 8 = BITFLAG) ↔ BITFLAG <+: y := by
    rw [List.prefix_iff_eq_take, eq_comm (a := slice y 0 8)]
    exact and_iff_right_of_imp fun h => (List.prefix_iff_eq_take.mpr h).length_le
  rw [stripLeading, if_congr hflag rfl rfl, slice, List.take_length]
  by_cases h : BITFLAG <+: y <;> simp [h]

/-- The trailing flag is tested at the end of what remains (R84). -/
theorem stripTrailing_eq (y : Bits) :
    stripTrailing y = (if BITFLAG <:+ y then y.take (y.length - 8) else y, decide (¬ BITFLAG <:+ y)) := by
  have hflag : (8 ≤ y.length ∧ slice y (y.length - 8) y.length = BITFLAG) ↔ BITFLAG <:+ y := by
    rw [List.suffix_iff_eq_drop, slice, List.take_length, eq_comm (b := BITFLAG)]
    exact and_iff_right_of_imp fun h => (List.suffix_iff_eq_drop.mpr h).length_le
  rw [stripTrailing, if_congr hflag rfl rfl, slice, List.drop_zero]
  by_cases h : BITFLAG <:+ y <;> simp [h]

/-- Settles O31: each strip tests one end, and the loop is the destuffing of what is left. -/
theorem bitDecDropsStuffedZeros : Obligations.BitDecDropsStuffedZeros := by
  intro s hwf hin flag f y1 y2
  have hlead : stripLeading f = (y1, decide (¬ flag <+: f)) := stripLeading_eq f
  have htrail : stripTrailing y1 = (y2, decide (¬ flag <:+ y1)) := stripTrailing_eq y1
  have hdec : bitDec f = .ok
      { out := (y2.foldl bitDecTurn ([], 0)).1, diag := { missingDelim := decide (¬ (flag <+: f ∧ flag <:+ y1)) } } := by
    simp only [bitDec, hlead, htrail, foldl_bitDecTurn, List.nil_append, not_and_or, Bool.decide_or]
  exact ⟨s.completeUnit bitDec, rfl,
    State.publishes_withinCapacityWith (State.completeUnit_publishes hwf hin hdec rfl (Nat.two_pow_pos 20))⟩

/-! ### The round trip (R85) -/

/-- The two run counters agree, so the destuffing drops each stuffed 0 and no other (R85). -/
theorem destuffBits_stuffBits (x : Bits) (c : Nat) (hc : c < STUFF_RUN) : destuffBits c (stuffBits c x) = x := by
  induction x generalizing c with
  | nil => rfl
  | cons b x ih =>
    have hzero : destuffBits 0 (stuffBits 0 x) = x := ih 0 (by decide)
    cases b with
    | false => rw [stuffBits, destuffBits, if_neg hc.ne, hzero]
    | true =>
      by_cases hfull : c + 1 = STUFF_RUN
      · rw [stuffBits, if_pos hfull, destuffBits, destuffBits, if_pos hfull, hzero]
      · rw [stuffBits, if_neg hfull, destuffBits, ih (c + 1) (by omega)]

theorem bitDec_bitEnc (x : Bits) : ∃ r, bitEnc x = .ok r ∧ bitDec r.out = .ok { out := x } := by
  refine ⟨_, rfl, ?_⟩
  have hlead (y : Bits) : stripLeading (BITFLAG ++ y) = (y, false) := by
    rw [stripLeading_eq, if_pos (List.prefix_append _ _), List.drop_left' (i := 8) rfl]
    simp
  have htrail (y : Bits) : stripTrailing (y ++ BITFLAG) = (y, false) := by
    rw [stripTrailing_eq, if_pos (List.suffix_append _ _), List.take_left' (by simp [BITFLAG])]
    simp
  simp only [bitDec, List.append_assoc, hlead, htrail, destuffBits_stuffBits x 0 (by decide), Bool.or_self]

end Sys2Proof.Machine
end

section
/-! ## The laws of the framing family (R85) -/
namespace Sys2Proof.Machine

/-- Settles O54: each decoder undoes its encoder, and a whole number of octets has no left pad. -/
theorem framingRoundTrips : Obligations.FramingRoundTrips := by
  intro x
  refine ⟨ccDec_ccEnc, fun hle haligned => ?_, byteDec_byteEnc x, bitDec_bitEnc x⟩
  simpa only [padLeft8_of_aligned haligned] using ccDec_ccEnc hle

end Sys2Proof.Machine
end

section
/-! ## The completion of a unit command whose output is empty -/
namespace Sys2Proof.Machine

/-- An empty output fits every OUT, so the record is published with its flags. -/
theorem State.completeUnit_publishes_of_out_nil {s : State} {engine : Engine} {r : Res} (hwf : s.params.wf)
    (hin : s.inLen.toNat ≤ s.params.maxInBits) (hengine : engine s.inString = .ok r) (herr : r.err = none)
    (hsyn : r.syndrome < 2 ^ 20) (hout : r.out = []) : (s.completeUnit engine).publishes r := by
  have hpub := State.completeUnit_publishes hwf hin hengine herr hsyn
  rwa [withinCapacityWith, if_pos (by simp [hout])] at hpub

end Sys2Proof.Machine
end

section
/-! ## Parity (R86, R87) -/
namespace Sys2Proof.Machine

/-- The XOR of a string's bits says whether it has an odd number of 1s (R16). -/
theorem xorAll_eq_decide_count (x : Bits) : xorAll x = decide (x.count true % 2 = 1) := by
  induction x with
  | nil => rfl
  | cons b x ih =>
    rw [xorAll_cons, ih]
    cases b with
    | false => simp
    | true =>
      rw [List.count_cons_self, Bool.true_xor, ← decide_not, decide_eq_decide]
      omega

/-- The parity check passes exactly on an even number of 1s (R87). -/
theorem xorAll_beq_false (y : Bits) : (xorAll y == false) = decide (y.count true % 2 = 0) := by
  rw [xorAll_eq_decide_count, beq_false, ← decide_not, decide_eq_decide]
  omega

/-- Settles O32: the appended bit is the XOR of the bits, which is 1 exactly when the 1s are odd. -/
theorem parEncMakesTheOnesEven : Obligations.ParEncMakesTheOnesEven := by
  intro s hwf hin x
  have henc : parEnc x = .ok { out := x ++ [decide (x.count true % 2 = 1)] } := by
    rw [parEnc, xorAll_eq_decide_count]
  exact ⟨s.completeUnit parEnc, rfl,
    State.completeUnit_publishes_of_no_flags hwf hin henc rfl (Nat.two_pow_pos 20) rfl⟩

/-- `par_ver` of a string too short to strip (R87). -/
theorem parVer_short {P : Nat} {y : Bits} (h : y.length < P + 1) :
    parVer P y = .ok { valid := decide (y.count true % 2 = 0), diag := { short := true } } := by
  simp only [parVer, xorAll_beq_false, PAR_LEN, if_pos h]

/-- `par_ver` of any other string (R87). -/
theorem parVer_ok {P : Nat} {y : Bits} (h : P + 1 ≤ y.length) :
    parVer P y = .ok { out := (y.drop P).take (y.length - P - 1), valid := decide (y.count true % 2 = 0) } := by
  simp only [parVer, xorAll_beq_false, PAR_LEN, if_neg (Nat.not_lt.mpr h), slice, List.drop_take, Nat.sub_right_comm]

/-- Settles O33 by the two outcomes of `par_ver`. -/
theorem parVerChecksAndStrips : Obligations.ParVerChecksAndStrips := by
  intro s hwf hin y P v
  refine ⟨s.completeUnit (parVer P), rfl, ?_⟩
  by_cases hshort : y.length < P + 1
  · rw [if_pos hshort]
    exact State.completeUnit_publishes_of_out_nil hwf hin (parVer_short hshort) rfl (Nat.two_pow_pos 20) rfl
  · rw [if_neg hshort]
    exact State.completeUnit_publishes_of_no_flags hwf hin (parVer_ok (Nat.not_lt.mp hshort)) rfl (Nat.two_pow_pos 20) rfl

end Sys2Proof.Machine
end

section
/-! ## The checksum (R88, R89) -/
namespace Sys2Proof.Machine

/-- The folded sum in the closed form of the fold (R17). -/
theorem foldedSum_eq (o : List Byte) :
    foldedSum o = if (o.map BitVec.toNat).sum = 0 then 0 else 1 + ((o.map BitVec.toNat).sum - 1) % 255 := fold8_eq _

theorem foldedSum_le (o : List Byte) : foldedSum o ≤ 0xFF := by
  rw [foldedSum_eq]
  split <;> omega

/-- The complement of an octet is what is missing to 0xFF. -/
theorem not_ofNat_eight {n : Nat} (h : n ≤ 0xFF) : ~~~(BitVec.ofNat 8 n) = BitVec.ofNat 8 (0xFF - n) := by
  apply BitVec.eq_of_toNat_eq
  rw [BitVec.toNat_not, BitVec.toNat_ofNat, BitVec.toNat_ofNat]
  omega

/-- `cs_enc`, its trailer as a difference (R88). -/
theorem csEnc_eq (x : Bits) :
    csEnc x = .ok { out := padRight8 x ++ bitsOf (BitVec.ofNat 8 (0xFF - foldedSum (octets (padRight8 x)))),
                    csumValue := BitVec.ofNat 8 (0xFF - foldedSum (octets (padRight8 x))) } := by
  simp only [csEnc, not_ofNat_eight (foldedSum_le _)]

/-- Settles O34: the trailer is the complement of the fold, whose closed form is R17's. -/
theorem csEncAppendsTheComplementedSum : Obligations.CsEncAppendsTheComplementedSum := by
  intro s hwf hin p sum c
  have hc : 0xFF - foldedSum (octets (padRight8 s.inString)) = c := by rw [foldedSum_eq]; rfl
  have henc : csEnc s.inString = .ok { out := p ++ bitsOf (BitVec.ofNat 8 c), csumValue := BitVec.ofNat 8 c } := by
    rw [csEnc_eq, hc]
    rfl
  exact ⟨s.completeUnit csEnc, rfl,
    State.completeUnit_publishes_of_no_flags hwf hin henc rfl (Nat.two_pow_pos 20) rfl⟩

/-- `cs_ver` of no whole number of octets, or of fewer than two (R89). -/
theorem csVer_misaligned {y : Bits} (h : y.length % 8 ≠ 0 ∨ y.length < 16) : csVer y = .error .misalignedFrame := by
  simp only [csVer, if_pos h]

/-- `cs_ver` of any other string (R89). -/
theorem csVer_ok {y : Bits} (h : ¬ (y.length % 8 ≠ 0 ∨ y.length < 16)) :
    csVer y = .ok { out := y.take (y.length - 8), valid := decide (foldedSum (octets y) = 0xFF),
                    csumValue := BitVec.ofNat 8 (foldedSum (octets y)) } := by
  simp only [csVer, if_neg h, slice, List.drop_zero, CS_LEN, beq_eq_decide]

/-- Settles O35 by the two outcomes of `cs_ver`. -/
theorem csVerChecksTheFoldedSum : Obligations.CsVerChecksTheFoldedSum := by
  intro s hwf hin y sum S
  have hS : foldedSum (octets y) = S := foldedSum_eq (octets y)
  refine ⟨s.completeUnit csVer, rfl, ?_⟩
  by_cases hbad : y.length % 8 ≠ 0 ∨ y.length < 16
  · rw [if_pos hbad]
    exact State.completeUnit_publishes_error hin (csVer_misaligned hbad)
  · rw [if_neg hbad, ← hS]
    exact State.completeUnit_publishes_of_no_flags hwf hin (csVer_ok hbad) rfl (Nat.two_pow_pos 20) rfl

end Sys2Proof.Machine
end

section
/-! ## The CRC (R90, R91, R92) -/
namespace Sys2Proof.Machine
open Sys2Proof.Pseudocode

/-- Settles O36: the trailer is the model's remainder, which is the one of the division by G. -/
theorem crcEncAppendsTheRemainder : Obligations.CrcEncAppendsTheRemainder := by
  intro s hwf hin m
  obtain ⟨q, hq⟩ := exists_quotient_crcRem (val m * 2 ^ 32)
  exact ⟨s.completeUnit crcEnc, crcRem (val m * 2 ^ 32), q, crcRem_lt _, hq, rfl,
    State.completeUnit_publishes_of_no_flags hwf hin rfl rfl (Nat.two_pow_pos 20) rfl⟩

/-- The division leaves no remainder exactly on the multiples of G (R18). -/
theorem crcRem_eq_zero_iff (v : Nat) : crcRem v = 0 ↔ ∃ q, v = carrylessMul q G := by
  constructor
  · intro h
    obtain ⟨q, hq⟩ := exists_quotient_crcRem v
    exact ⟨q, by rwa [h, Nat.xor_zero] at hq⟩
  · rintro ⟨q, hq⟩
    exact (eq_crcRem (q := q) (Nat.two_pow_pos 32) (by rwa [Nat.xor_zero])).symm

/-- Settles O37: the check compares the remainder with 0. -/
theorem crcVerIsValidOnMultiplesOfG : Obligations.CrcVerIsValidOnMultiplesOfG := by
  intro s hwf hin y
  exact ⟨s.completeUnit crcVer, crcRem (val y) == 0, beq_iff_eq.trans (crcRem_eq_zero_iff (val y)), rfl,
    State.completeUnit_publishes_of_no_flags hwf hin rfl rfl (Nat.two_pow_pos 20) rfl⟩

/-- `crc_strip` of a string too short to strip (R92). -/
theorem crcStrip_short {Q : Nat} {y : Bits} (h : y.length < 32 + Q) : crcStrip Q y = .ok { diag := { short := true } } :=
  if_pos h

/-- `crc_strip` of any other string (R92). -/
theorem crcStrip_ok {Q : Nat} {y : Bits} (h : 32 + Q ≤ y.length) :
    crcStrip Q y = .ok { out := y.take (y.length - 32 - Q) } := by
  simp only [crcStrip, CRC_LEN, if_neg (Nat.not_lt.mpr h), slice, List.drop_zero]

/-- Settles O38 by the two outcomes of `crc_strip`. -/
theorem crcStripDropsCrcAndPad : Obligations.CrcStripDropsCrcAndPad := by
  intro s hwf hin y Q
  refine ⟨s.completeUnit (crcStrip Q), rfl, ?_⟩
  by_cases hshort : y.length < 32 + Q
  · rw [if_pos hshort]
    exact State.completeUnit_publishes_of_out_nil hwf hin (crcStrip_short hshort) rfl (Nat.two_pow_pos 20) rfl
  · rw [if_neg hshort]
    exact State.completeUnit_publishes_of_no_flags hwf hin (crcStrip_ok (Nat.not_lt.mp hshort)) rfl (Nat.two_pow_pos 20) rfl

end Sys2Proof.Machine
end

section
/-! ## The positions of a codeword (R94) -/
namespace Sys2Proof.Machine
open Sys2Proof.Pseudocode

/-- Entry `k` of a string stands at position `k + 1`. -/
theorem zipIdx_one_eq_range (c : Bits) : c.zipIdx 1 = (List.range c.length).map fun k => (c.getD k false, k + 1) := by
  refine List.ext_getElem (by simp) fun k hk _ => ?_
  have hk : k < c.length := by simpa using hk
  simp [hk, Nat.add_comm]

/-! ### Checks: the XOR over a set of positions -/

theorem xorAll_map_filter {α : Type} (p f : α → Bool) (l : List α) :
    xorAll ((l.filter p).map f) = xorAll (l.map fun a => p a && f a) := by
  induction l with
  | nil => rfl
  | cons a l ih => cases h : p a <;> simp [h, ih]

theorem xorAll_map_xor {α : Type} (f g : α → Bool) (l : List α) :
    xorAll (l.map fun a => f a ^^ g a) = (xorAll (l.map f) ^^ xorAll (l.map g)) := by
  induction l with
  | nil => rfl
  | cons a l ih =>
    simp only [List.map_cons, xorAll_cons, ih, Bool.xor_assoc, Bool.xor_left_comm (g a)]

/-- An XOR with one term that can be 1 is that term. -/
theorem xorAll_map_single {n k : Nat} (hk : k < n) (b : Bool) : xorAll ((List.range n).map fun l => l == k && b) = b := by
  rw [xorAll_eq_decide_count, List.count_eq_countP, List.countP_map]
  cases b with
  | false => simp [Function.comp_def]
  | true =>
    have hone : (List.range n).countP ((· == true) ∘ fun l => l == k && true) = (List.range n).count k := by
      simp [List.count_eq_countP, Function.comp_def]
    rw [hone, List.count_eq_one_of_mem List.nodup_range (List.mem_range.mpr hk)]
    rfl

/-- A check, as the XOR over all positions of the selected bits (R95, R96). -/
theorem xorWhere_eq (sel : Nat → Bool) (c : Bits) :
    xorWhere sel c = xorAll ((List.range c.length).map fun k => sel (k + 1) && c.getD k false) := by
  rw [xorWhere, xorAll_map_filter, zipIdx_one_eq_range, List.map_map]
  rfl

/-- A check fails exactly on an odd number of 1s at its positions (R96). -/
theorem xorWhere_eq_decide_onesAt (sel : Nat → Bool) (c : Bits) : xorWhere sel c = decide (onesAt sel c % 2 = 1) := by
  rw [xorWhere_eq, xorAll_eq_decide_count, List.count_eq_countP, List.countP_map, onesAt]
  simp [Function.comp_def]

/-- Flipping the bit at a position of the set turns the check over. -/
theorem xorWhere_modify (sel : Nat → Bool) {c : Bits} {k : Nat} (hk : k < c.length) :
    xorWhere sel (c.modify k (!·)) = (xorWhere sel c ^^ sel (k + 1)) := by
  have hbit (l : Nat) (hl : l < c.length) : (sel (l + 1) && (c.modify k (!·)).getD l false)
      = ((sel (l + 1) && c.getD l false) ^^ (l == k && sel (k + 1))) := by
    have hl' : l < (c.modify k (!·)).length := by simpa using hl
    rw [List.getD_eq_getElem _ _ hl, List.getD_eq_getElem _ _ hl', List.getElem_modify]
    by_cases h : l = k
    · subst h
      cases sel (l + 1) <;> simp
    · simp [Ne.symm h, beq_false_of_ne h]
  rw [xorWhere_eq, List.length_modify, List.map_congr_left fun l hl => hbit l (List.mem_range.mp hl), xorAll_map_xor,
    xorAll_map_single hk, ← xorWhere_eq]

/-! ### The data positions -/

theorem dataAt_eq (c : Bits) :
    dataAt c = (List.range c.length).filterMap fun k => if isPow2 (k + 1) then none else some (c.getD k false) := by
  refine List.filterMap_congr fun k hk => ?_
  have hk : k < c.length := List.mem_range.mp hk
  rw [List.getElem?_eq_getElem hk, List.getD_eq_getElem _ _ hk]
  simp only [isPow2, beq_iff_eq]

/-- The data read from a string depends on its data positions alone. -/
theorem dataAt_congr {w c : Bits} (hlen : w.length = c.length)
    (h : ∀ k < c.length, isPow2 (k + 1) = false → w.getD k false = c.getD k false) : dataAt w = dataAt c := by
  rw [dataAt_eq, dataAt_eq, hlen]
  refine List.filterMap_congr fun k hk => ?_
  by_cases hpow : isPow2 (k + 1)
  · rw [if_pos hpow, if_pos hpow]
  · rw [if_neg hpow, if_neg hpow, h k (List.mem_range.mp hk) (Bool.eq_false_iff.mpr hpow)]

theorem dataBits_eq_dataAt (c : Bits) : dataBits c = dataAt c := by
  rw [dataBits, zipIdx_one_eq_range, ← List.filterMap_eq_filter, List.map_filterMap, List.filterMap_map, dataAt_eq]
  refine List.filterMap_congr fun k _ => ?_
  cases hpow : isPow2 (k + 1) <;> simp [hpow]

end Sys2Proof.Machine
end

section
/-! ## The syndrome (R96) -/
namespace Sys2Proof.Machine
open Sys2Proof.Pseudocode

/-- The indices of the checks that fail, in rising order. -/
def failedChecks (c : Bits) : List Nat :=
  (List.range (c.length.log2 + 1)).filter fun i => decide (2 ^ i ≤ c.length) && xorWhere (covers (2 ^ i)) c

theorem mem_failedChecks {c : Bits} {i : Nat} :
    i ∈ failedChecks c ↔ 2 ^ i ≤ c.length ∧ xorWhere (covers (2 ^ i)) c = true := by
  rw [failedChecks, List.mem_filter, List.mem_range, Bool.and_eq_true, decide_eq_true_eq, and_iff_right_of_imp]
  rintro ⟨hle, -⟩
  exact Nat.lt_succ_of_le ((Nat.le_log2 ((Nat.two_pow_pos i).trans_le hle).ne').mpr hle)

theorem syndromeOf_eq_sum (c : Bits) : syndromeOf c = ((failedChecks c).map (2 ^ ·)).sum := by
  rw [syndromeOf, powersUpTo, failedChecks]
  congr 1
  generalize List.range (c.length.log2 + 1) = l
  induction l with
  | nil => rfl
  | cons i l ih =>
    by_cases hle : 2 ^ i ≤ c.length
    · cases hx : xorWhere (covers (2 ^ i)) c <;> simp [hle, hx, ih]
    · simp [hle, ih]

/-- A bit of the syndrome says whether its check fails: the powers that are summed are distinct (R96). -/
theorem testBit_syndromeOf (c : Bits) (i : Nat) :
    (syndromeOf c).testBit i = true ↔ 2 ^ i ≤ c.length ∧ xorWhere (covers (2 ^ i)) c = true := by
  have hsorted : (failedChecks c).SortedLT := (List.sortedLT_range _).pairwise.filter _ |>.sortedLT
  rw [← mem_failedChecks, ← Nat.mem_bitIndices, syndromeOf_eq_sum, Nat.bitIndices_sum_map_two_pow hsorted]

/-- The syndrome of a string whose length fits a register fits its register. -/
theorem syndromeOf_lt {c : Bits} {b : Nat} (h : c.length < 2 ^ b) : syndromeOf c < 2 ^ b := by
  refine Nat.lt_pow_two_of_testBit _ fun i hi => ?_
  rw [Bool.eq_false_iff, ne_eq, testBit_syndromeOf]
  rintro ⟨hle, -⟩
  exact absurd ((Nat.pow_le_pow_right Nat.two_pos hi).trans hle) (Nat.not_le.mpr h)

/-- Flipping a position adds its number to the syndrome, bit by bit. -/
theorem syndromeOf_modify {c : Bits} {i : Nat} (hi : 1 ≤ i) (hle : i ≤ c.length) :
    syndromeOf (c.modify (i - 1) (!·)) = syndromeOf c ^^^ i := by
  have hlt : i - 1 < c.length := by omega
  refine Nat.eq_of_testBit_eq fun k => ?_
  rw [Bool.eq_iff_iff, testBit_syndromeOf, xorWhere_modify _ hlt, Nat.sub_add_cancel hi, covers_two_pow, List.length_modify,
    Nat.testBit_xor]
  by_cases hk : 2 ^ k ≤ c.length
  · have hbit : (syndromeOf c).testBit k = xorWhere (covers (2 ^ k)) c := by
      rw [Bool.eq_iff_iff, testBit_syndromeOf, and_iff_right hk]
    rw [hbit, and_iff_right hk]
  · have hbit : (syndromeOf c).testBit k = false := by
      rw [Bool.eq_false_iff, ne_eq, testBit_syndromeOf]
      exact fun h => hk h.1
    have hpos : i.testBit k = false := Nat.testBit_lt_two_pow (by omega)
    simp [hk, hbit, hpos]

/-- `ham_dec`, its three verdicts in one record (R96). -/
theorem hamDec_eq (y : Bits) :
    hamDec y = .ok
      { out := dataAt (if 1 ≤ syndromeOf y ∧ syndromeOf y ≤ y.length then y.modify (syndromeOf y - 1) (!·) else y),
        corr := if syndromeOf y = 0 then .clean else if syndromeOf y ≤ y.length then .corrected else .uncorrectable,
        syndrome := syndromeOf y, diag := { uncorrectable := decide (y.length < syndromeOf y) } } := by
  simp only [hamDec, dataBits_eq_dataAt, flipPosition]
  by_cases hclean : syndromeOf y = 0
  · simp [hclean]
  · have hpos : 1 ≤ syndromeOf y := Nat.pos_of_ne_zero hclean
    by_cases hle : syndromeOf y ≤ y.length
    · simp [hclean, hpos, hle]
    · simp [hclean, hle, Nat.lt_of_not_le hle]

/-- Settles O40: the syndrome's bits are the failed checks, and its three ranges are the three verdicts. -/
theorem hamDecCorrectsTheNamedPosition : Obligations.HamDecCorrectsTheNamedPosition := by
  intro s hwf hin y n
  have hlen : y.length < 2 ^ 20 := by
    rw [show y.length = s.inLen.toNat from s.inString_length]
    exact s.inLen.isLt
  refine ⟨s.completeUnit hamDec, syndromeOf y, rfl, fun i => ?_, ?_⟩
  · rw [testBit_syndromeOf, xorWhere_eq_decide_onesAt, decide_eq_true_eq]
    rfl
  · exact State.publishes_withinCapacityWith
      (State.completeUnit_publishes hwf hin (hamDec_eq y) rfl (syndromeOf_lt hlen))

end Sys2Proof.Machine
end

section
/-! ## The Hamming codeword (R94, R95) -/
namespace Sys2Proof.Machine
open Sys2Proof.Pseudocode

/-! ### The parity-bit count -/

/-- The search stops at the least count, when its last value is enough. -/
theorem leastParity_isLeast {fuel r m : Nat} (hbelow : ∀ r' < r, 2 ^ r' < r' + m + 1)
    (hlast : r + fuel + m + 1 ≤ 2 ^ (r + fuel)) :
    leastParity fuel r m + m + 1 ≤ 2 ^ leastParity fuel r m ∧ ∀ r' < leastParity fuel r m, 2 ^ r' < r' + m + 1 := by
  induction fuel generalizing r with
  | zero => exact ⟨hlast, hbelow⟩
  | succ fuel ih =>
    rw [leastParity]
    split
    case isTrue henough => exact ⟨henough, hbelow⟩
    case isFalse hmore =>
      rw [show r + (fuel + 1) = r + 1 + fuel by omega] at hlast
      refine ih (fun r' hr' => ?_) hlast
      obtain rfl | hlt := (Nat.lt_succ_iff.mp hr').eq_or_lt
      · exact Nat.lt_of_not_le hmore
      · exact hbelow r' hlt

/-- The parity-bit count is the least r with 2^r >= r + m + 1 (R94). -/
theorem parityCount_isLeast (m : Nat) :
    parityCount m + m + 1 ≤ 2 ^ parityCount m ∧ ∀ r' < parityCount m, 2 ^ r' < r' + m + 1 := by
  refine leastParity_isLeast (fun r' hr' => absurd hr' (Nat.not_lt_zero r')) ?_
  have : m < 2 ^ m := Nat.lt_two_pow_self
  rw [Nat.zero_add, Nat.pow_succ]
  omega

/-- The parity positions of a codeword are 2^0 to 2^(r-1) (R94). -/
theorem two_pow_le_codeword_iff (m i : Nat) : 2 ^ i ≤ parityCount m + m ↔ i < parityCount m := by
  obtain ⟨henough, hleast⟩ := parityCount_isLeast m
  constructor
  · intro hle
    by_contra hge
    have : 2 ^ parityCount m ≤ 2 ^ i := Nat.pow_le_pow_right Nat.two_pos (Nat.le_of_not_lt hge)
    omega
  · intro hlt
    have := hleast i hlt
    omega

/-- As many positions up to n are powers of two as powers are at most n. -/
theorem countP_isPow2_range' {n r : Nat} (h : ∀ i, 2 ^ i ≤ n ↔ i < r) : (List.range' 1 n).countP isPow2 = r := by
  have hperm : ((List.range' 1 n).filter isPow2).Perm ((List.range r).map (2 ^ ·)) := by
    refine (List.perm_ext_iff_of_nodup ((List.nodup_range' (s := 1)).filter _)
      (List.nodup_range.map (Nat.pow_right_injective le_rfl))).mpr fun j => ?_
    simp only [List.mem_filter, List.mem_range'_1, isPow2_iff, List.mem_map, List.mem_range, ← h]
    constructor
    · rintro ⟨⟨-, hlt⟩, i, rfl⟩
      exact ⟨i, by omega, rfl⟩
    · rintro ⟨i, hle, rfl⟩
      exact ⟨⟨Nat.two_pow_pos i, by omega⟩, i, rfl⟩
  rw [List.countP_eq_length_filter, hperm.length_eq, List.length_map, List.length_range]

/-! ### The data positions hold the data -/

/-- The codeword of `x` before its parity bits are set (R95). -/
def placedData (x : Bits) : Bits := placeData 1 (parityCount x.length + x.length) x

theorem length_placedData (x : Bits) : (placedData x).length = parityCount x.length + x.length := length_placeData _ _ _

/-- From any position on, the data bits are placed in order, where they are as many as the data positions. -/
theorem dataBits_placeData_from (n j : Nat) (x : Bits) (h : (List.range' j n).countP (!isPow2 ·) = x.length) :
    (((placeData j n x).zipIdx j).filter fun e => !isPow2 e.2).map Prod.fst = x := by
  induction n generalizing j x with
  | zero => exact (List.length_eq_zero_iff.mp h.symm).symm
  | succ n ih =>
    rw [List.range'_succ, List.countP_cons] at h
    rw [placeData]
    by_cases hpow : isPow2 j
    · simpa [hpow] using ih (j + 1) x (by simpa [hpow] using h)
    · cases x with
      | nil => simp [hpow] at h
      | cons b x => simpa [hpow] using ih (j + 1) x (by simpa [hpow] using h)

/-- The n = r + m positions have m data positions, which the placed bits fill (R95). -/
theorem dataAt_placedData (x : Bits) : dataAt (placedData x) = x := by
  rw [← dataBits_eq_dataAt]
  refine dataBits_placeData_from _ 1 x ?_
  have hparity := countP_isPow2_range' (two_pow_le_codeword_iff x.length)
  have hall := List.length_eq_countP_add_countP isPow2 (l := List.range' 1 (parityCount x.length + x.length))
  simp only [List.length_range', hparity, Bool.not_eq_true, Bool.decide_eq_false] at hall
  omega

/-! ### The parity bits -/

/-- The covering set of a power of two, its own position excluded (R95). -/
def coversOther (p j : Nat) : Bool := covers p j && j != p

theorem coversOther_self (p : Nat) : coversOther p p = false := by simp [coversOther]

theorem coversOther_of_ne {p j : Nat} (h : j ≠ p) : coversOther p j = covers p j := by simp [coversOther, h]

/-- No power of two but 2^i itself is in the covering set of 2^i (R20). -/
theorem coversOther_two_pow_of_isPow2 (i : Nat) {j : Nat} (h : isPow2 j = true) : coversOther (2 ^ i) j = false := by
  obtain ⟨l, rfl⟩ := (isPow2_iff j).mp h
  by_cases hl : l = i
  · rw [hl, coversOther_self]
  · have hne : 2 ^ l ≠ 2 ^ i := fun h => hl (Nat.pow_right_injective le_rfl h)
    rw [coversOther_of_ne hne, covers_two_pow, Nat.testBit_two_pow_of_ne hl]

/-- The codeword with its parity bits set, from the string that holds the placed data (R95). -/
def setParity (c : Bits) : Bits :=
  (c.zipIdx 1).map fun e => if isPow2 e.2 then xorWhere (coversOther e.2) c else e.1

theorem hamEnc_eq (x : Bits) : hamEnc x = .ok { out := setParity (placedData x) } := rfl

@[simp] theorem length_setParity (c : Bits) : (setParity c).length = c.length := by simp [setParity]

theorem setParity_getD {c : Bits} {k : Nat} (hk : k < c.length) :
    (setParity c).getD k false =
      if isPow2 (k + 1) then xorWhere (coversOther (k + 1)) c else c.getD k false := by
  have hk' : k < (setParity c).length := by simpa using hk
  rw [List.getD_eq_getElem _ _ hk']
  simp [setParity, hk, Nat.add_comm]

/-- What a position of the codeword adds to the check of 2^i: its placed bit, or the parity bit at 2^i itself, the one power of
two in the covering set. -/
theorem covers_and_setParity_getD {c : Bits} {i k : Nat} (hk : k < c.length) :
    (covers (2 ^ i) (k + 1) && (setParity c).getD k false)
      = ((coversOther (2 ^ i) (k + 1) && c.getD k false) ^^ (k == 2 ^ i - 1 && xorWhere (coversOther (2 ^ i)) c)) := by
  have hpos : 0 < 2 ^ i := Nat.two_pow_pos i
  rw [setParity_getD hk]
  by_cases hself : k + 1 = 2 ^ i
  · have hpow : isPow2 (2 ^ i) = true := (isPow2_iff _).mpr ⟨i, rfl⟩
    have hcovers : covers (2 ^ i) (2 ^ i) = true := by rw [covers_two_pow, Nat.testBit_two_pow_self]
    rw [beq_iff_eq.mpr (show k = 2 ^ i - 1 by omega), hself, if_pos hpow, hcovers, coversOther_self, Bool.false_and,
      Bool.false_xor]
  · rw [beq_false_of_ne (show k ≠ 2 ^ i - 1 by omega), Bool.false_and, Bool.xor_false, ← coversOther_of_ne hself]
    by_cases hpow : isPow2 (k + 1)
    · rw [coversOther_two_pow_of_isPow2 i hpow, Bool.false_and, Bool.false_and]
    · rw [if_neg hpow]

/-- Every covering set of the codeword has an even number of 1s: the parity bit cancels the rest of its set (R95). -/
theorem xorWhere_setParity {c : Bits} {i : Nat} (h : 2 ^ i ≤ c.length) : xorWhere (covers (2 ^ i)) (setParity c) = false := by
  have hlt : 2 ^ i - 1 < c.length := Nat.sub_one_lt_of_le (Nat.two_pow_pos i) h
  rw [xorWhere_eq, length_setParity, List.map_congr_left fun k hk => covers_and_setParity_getD (List.mem_range.mp hk),
    xorAll_map_xor, xorAll_map_single hlt, ← xorWhere_eq, Bool.xor_self]

theorem syndromeOf_setParity (c : Bits) : syndromeOf (setParity c) = 0 := by
  refine Nat.eq_of_testBit_eq fun i => ?_
  rw [Nat.zero_testBit, Bool.eq_false_iff, ne_eq, testBit_syndromeOf, length_setParity]
  rintro ⟨hle, hodd⟩
  rw [xorWhere_setParity hle] at hodd
  exact Bool.false_ne_true hodd

theorem dataAt_setParity (c : Bits) : dataAt (setParity c) = dataAt c :=
  dataAt_congr (length_setParity c) fun k hk hdata => by rw [setParity_getD hk, if_neg (by simp [hdata])]

/-- Settles O39 with the model's own codeword. -/
theorem hamEncBuildsTheCodeword : Obligations.HamEncBuildsTheCodeword := by
  intro s hwf hin m
  obtain ⟨henough, hleast⟩ := parityCount_isLeast m
  refine ⟨s.completeUnit hamEnc, parityCount m, setParity (placedData s.inString), rfl, henough, hleast,
    by rw [length_setParity, length_placedData], by rw [dataAt_setParity, dataAt_placedData], fun i hi => ?_,
    State.completeUnit_publishes_of_no_flags hwf hin (hamEnc_eq _) rfl (Nat.two_pow_pos 20) rfl⟩
  rw [length_setParity] at hi
  have heven := xorWhere_setParity hi
  rw [xorWhere_eq_decide_onesAt, decide_eq_false_iff_not] at heven
  exact Nat.mod_two_ne_one.mp heven

/-- Flipping a position twice restores the string. -/
theorem modify_not_modify_not (c : Bits) (k : Nat) : (c.modify k (!·)).modify k (!·) = c := by
  rw [List.modify_modify_eq, Bool.involutive_not.comp_self, List.modify_id]

/-- Settles O57: a flipped position is the whole syndrome, and flipping it again restores the codeword. -/
theorem hammingDecodesEverySingleFlipExactly : Obligations.HammingDecodesEverySingleFlipExactly := by
  intro x
  refine ⟨_, hamEnc_eq x, ?_⟩
  generalize hw : setParity (placedData x) = w
  have hdata : dataAt w = x := by rw [← hw, dataAt_setParity, dataAt_placedData]
  have hzero : syndromeOf w = 0 := by rw [← hw, syndromeOf_setParity]
  refine ⟨by simp [hamDec_eq, hzero, hdata], fun i hpos hle => ?_⟩
  have hsyn : syndromeOf (w.modify (i - 1) (!·)) = i := by rw [syndromeOf_modify hpos hle, hzero, Nat.zero_xor]
  have hlen : (w.modify (i - 1) (!·)).length = w.length := List.length_modify ..
  have hle : i ≤ w.length := hle
  rw [hamDec_eq, hsyn, hlen, if_pos ⟨hpos, hle⟩, if_neg (show i ≠ 0 by omega), if_pos hle, modify_not_modify_not, hdata,
    decide_eq_false (show ¬ w.length < i by omega)]

end Sys2Proof.Machine
end

section
/-! ## The strategy check (R74, R100) -/
namespace Sys2Proof.Machine

theorem framingOf_eq_none_iff (f : BitVec 2) : framingOf f = none ↔ f = 3 := by
  revert f
  decide

theorem correctionOf_eq_none_iff (c : BitVec 2) : correctionOf c = none ↔ 2 ≤ c.toNat := by
  revert c
  decide

theorem detectionOf_eq_none_iff (d : BitVec 3) : detectionOf d = none ↔ 4 ≤ d.toNat := by
  revert d
  decide

/-- A reserved FRAMING is reported whatever the other fields hold. -/
theorem ConfigReg.strategies_of_framing_reserved {c : ConfigReg} (hf : c.framing = 3) : c.strategies = .error .framing := by
  rw [← framingOf_eq_none_iff] at hf
  simp only [ConfigReg.strategies, hf]

/-- A reserved CORRECTION is reported where FRAMING is legal. -/
theorem ConfigReg.strategies_of_correction_reserved {c : ConfigReg} (hf : c.framing ≠ 3) (hk : 2 ≤ c.correction.toNat) :
    c.strategies = .error .correction := by
  rw [Ne, ← framingOf_eq_none_iff] at hf
  rw [← correctionOf_eq_none_iff] at hk
  obtain ⟨f, hf⟩ := Option.ne_none_iff_exists'.mp hf
  simp only [ConfigReg.strategies, hf, hk]

/-- A reserved DETECTION is reported where FRAMING and CORRECTION are legal. -/
theorem ConfigReg.strategies_of_detection_reserved {c : ConfigReg} (hf : c.framing ≠ 3) (hk : c.correction.toNat < 2)
    (hd : 4 ≤ c.detection.toNat) : c.strategies = .error .detection := by
  rw [Ne, ← framingOf_eq_none_iff] at hf
  rw [← Nat.not_le, ← correctionOf_eq_none_iff] at hk
  rw [← detectionOf_eq_none_iff] at hd
  obtain ⟨f, hf⟩ := Option.ne_none_iff_exists'.mp hf
  obtain ⟨k, hk⟩ := Option.ne_none_iff_exists'.mp hk
  simp only [ConfigReg.strategies, hf, hk, hd]

end Sys2Proof.Machine
end

section
/-! ## The completion of a pipeline command that aborts (R104, R108) -/
namespace Sys2Proof.Machine

/-- The traces show the stages that completed, in order, where TRACE_EN is set (R104). -/
theorem State.writeTraces_showsTraces (s : State) {stages : List Bits} (hlen : ∀ x ∈ stages, x.length < 2 ^ 20) :
    (s.writeTraces stages).showsTraces s.config.traceEn stages[0]? stages[1]? stages[2]? := by
  have hshows (m : BitMem) (k : Nat) : showsTrace (traceAfter m stages[k]?).1 (traceAfter m stages[k]?).2 stages[k]? :=
    traceAfter_shows m _ fun x hx => hlen x (List.mem_of_getElem? hx)
  cases htrace : s.config.traceEn with
  | true =>
    simp only [State.showsTraces, State.writeTraces, htrace, if_true]
    exact ⟨hshows _ 0, hshows _ 1, hshows _ 2⟩
  | false =>
    simp only [State.showsTraces, State.writeTraces, htrace, Bool.false_eq_true, if_false]
    exact ⟨rfl, rfl, rfl⟩

/-- A pipeline command that raises publishes the abort, and keeps the traces of the stages that completed (R104, R108). -/
theorem State.completePipe_aborts {s : State} {rule : Bits → PipeOutcome} {e : HardError} {stage : Stage} {diag : Diag}
    {stages : List Bits} (hin : s.inLen.toNat ≤ s.params.maxInBits)
    (hrule : rule s.inString = { res := Res.abort e (some stage) diag, stages := stages })
    (hlen : ∀ x ∈ stages, x.length < 2 ^ 20) :
    (s.completePipe rule).publishes { err := some e, errStage := some stage, diag := diag } ∧
      (s.completePipe rule).showsTraces s.config.traceEn stages[0]? stages[1]? stages[2]? := by
  rw [State.completePipe_eq, if_neg (Nat.not_lt.mpr hin), hrule, guardOutput_of_error _ _ (Option.some_ne_none e)]
  exact ⟨s.complete_publishes _ (Nat.two_pow_pos 20) (Nat.two_pow_pos 20), State.writeTraces_showsTraces _ hlen⟩

end Sys2Proof.Machine
end

section
/-! ## The configuration errors of the pipeline commands (R100) -/
namespace Sys2Proof.Machine

theorem pipeTx_of_reserved {c : ConfigReg} {field : Stage} (h : c.strategies = .error field) (cap : Nat) (x : Bits) :
    pipeTx cap c x = { res := Res.abort .configError (some field) {}, stages := [] } := by
  simp only [pipeTx, h]

theorem pipeRx_of_reserved {c : ConfigReg} {field : Stage} (h : c.strategies = .error field) (cap P Q : Nat) (y : Bits) :
    pipeRx cap c P Q y = { res := Res.abort .configError (some field) {}, stages := [] } := by
  simp only [pipeRx, h]

/-- In either direction the reserved field that the check reports ends the command before any stage. -/
theorem exec_pipe_of_reserved {s : State} {i : Instr} {field : Stage} (hi : i ∈ [Instr.pipeTx, .pipeRx])
    (hin : s.inLen.toNat ≤ s.params.maxInBits) (h : s.config.strategies = .error field) :
    ∃ t, exec i s = .next t ∧ t.publishes { err := some .configError, errStage := some field }
      ∧ t.showsTraces s.config.traceEn none none none := by
  simp only [List.mem_cons, List.not_mem_nil, or_false] at hi
  obtain rfl | rfl := hi
  · exact ⟨_, rfl, State.completePipe_aborts hin (pipeTx_of_reserved h _ _) (List.forall_mem_nil _)⟩
  · exact ⟨_, rfl, State.completePipe_aborts hin (pipeRx_of_reserved h _ _ _ _) (List.forall_mem_nil _)⟩

/-- Settles O43: each clause names the field that the check reports. -/
theorem configErrorNamesTheFirstReservedField : Obligations.ConfigErrorNamesTheFirstReservedField := fun _ _ hi hin =>
  ⟨fun hf => exec_pipe_of_reserved hi hin (ConfigReg.strategies_of_framing_reserved hf),
    fun hf hk => exec_pipe_of_reserved hi hin (ConfigReg.strategies_of_correction_reserved hf hk),
    fun hf hk hd => exec_pipe_of_reserved hi hin (ConfigReg.strategies_of_detection_reserved hf hk hd)⟩

end Sys2Proof.Machine
end

section
/-! ## The values at reset (R124) -/
namespace Sys2Proof.Machine

/-- R124's registers at 0. None depends on what the platform fixes, so each is read in `State.reset`. -/
theorem State.resetWith_readTarget_eq_zero (p : Params) (l : List Nat) (ins : List Input) (d : Nat) :
    ∀ tgt ∈ [Target.cmd, .status, .diag, .config, .inLen, .outLen, .syndrome, .crcValue, .csumValue, .trace0Len, .trace1Len,
      .trace2Len, .reserved], (State.resetWith p l ins d).readTarget tgt = 0 := by
  intro tgt htgt
  have hplatform : (State.resetWith p l ins d).readTarget tgt = State.reset.readTarget tgt := by fin_cases htgt <;> rfl
  rw [hplatform]
  fin_cases htgt <;> decide

/-- R124's PADS: PARITY_PAD 7 and CRC_PAD 64 in the word of R31. -/
theorem State.resetWith_readTarget_pads (p : Params) (l : List Nat) (ins : List Input) (d : Nat) :
    (State.resetWith p l ins d).readTarget .pads = 0x00400007 :=
  calc (State.resetWith p l ins d).readTarget .pads
    _ = PadsReg.word { parityPad := 7, crcPad := 64 } := rfl
    _ = 0x00400007 := by decide

/-- Settles O14: the reset input answers `resetWith` of what the platform fixes, whatever the state and its phase; the fields it
sets are read off, the register words are the two lemmas above, and every buffer is the one with no bit written. -/
theorem resetPutsEveryFieldAtItsValue : Obligations.ResetPutsEveryFieldAtItsValue := by
  intro s
  have hreset : hostAccess s .reset = .next (State.resetWith s.params s.latencies s.inputs s.draws) := by
    rw [hostAccess, State.assertReset_eq]
  refine ⟨_, hreset, rfl, rfl, rfl, rfl, rfl, rfl, rfl, State.resetWith_readTarget_eq_zero _ _ _ _,
    State.resetWith_readTarget_pads _ _ _ _, rfl, rfl, rfl, rfl, rfl, rfl, ?unwritten⟩
  case unwritten => simp

end Sys2Proof.Machine
end

section
/-! ## The decoder and the step (R70, R72, R73, R75, R65) -/
namespace Sys2Proof.Machine

/-- Each row of the opcode map holds its command's opcode (R72). -/
theorem opcode_of_mem_opcodeMap : ∀ row ∈ opcodeMap, row.1 = row.2.opcode := by decide

theorem decode_encode (i : Instr) : decode (encode i) = .ok i := by cases i <;> rfl

/-- A word is its reserved bits above its opcode (R70). -/
theorem reserved_append_opcodeField (w : Word) : w.extractLsb' 8 24 ++ opcodeField w = w :=
  BitVec.extractLsb'_append_extractLsb' (w := 24) (len := 8)

/-- A word that decodes has no reserved bit set and its opcode in the map, so it is the command's encoding. -/
theorem decode_eq_ok_iff (w : Word) (i : Instr) : decode w = .ok i ↔ w = encode i := by
  constructor
  · intro h
    rw [decode] at h
    split_ifs at h with hzero
    split at h
    case h_1 row hrow =>
      cases h
      have hopcode : row.1 = opcodeField w := by simpa using List.find?_some hrow
      rw [encode, ← opcode_of_mem_opcodeMap row (List.mem_of_find?_eq_some hrow), hopcode]
      conv_lhs => rw [← reserved_append_opcodeField w, hzero]
    case h_2 => cases h
  · rintro rfl
    exact decode_encode i

/-- Settles O1. -/
theorem decodeAcceptsExactlyTheEncodings : Obligations.DecodeAcceptsExactlyTheEncodings := decode_eq_ok_iff

/-- Settles O2: the words are fixed, so the decoder is run on each. -/
theorem sampleWordsDecodeToTheirCommands : Obligations.SampleWordsDecodeToTheirCommands := by
  unfold Obligations.SampleWordsDecodeToTheirCommands
  decide

/-- Settles O4. -/
theorem stepRunsTheDecodedCommand : Obligations.StepRunsTheDecodedCommand := fun _ _ hbusy hdue hdecode =>
  (step_complete hbusy hdue).trans (engineStep_decoded hdecode)

theorem serve_of_next {s t : State} {i : Input} (h : hostAccess s i = .next t) : serve s i = .next t := by
  rw [serve, h]

theorem serve_of_fault {s : State} {i : Input} {f : Fault} (h : hostAccess s i = .fault f) :
    serve s i = .next (s.respond (.failed f)) := by
  rw [serve, h]

/-- Settles O5. -/
theorem stepServesTheHostUntilCompletion : Obligations.StepServesTheHostUntilCompletion := fun _ =>
  ⟨step_idle, fun _ hbusy hwait => step_waiting hbusy hwait, hostStep_nil, fun _ _ h => hostStep_cons h,
    fun _ _ h => serve_of_next h, fun _ _ h => serve_of_fault h⟩

/-- What a step is: the completion that is due, or a step of the outside world with one host step less to wait while BUSY. -/
theorem step_cases (s : State) :
    (s.phase = .busy ∧ s.waiting = 0 ∧ step s = engineStep s) ∨
      (s.phase = .idle ∧ step s = hostStep s) ∨
      ∃ n, s.phase = .busy ∧ s.waiting = n + 1 ∧ step s = hostStep (s.withWaiting n) := by
  rcases hphase : s.phase with _ | _
  · exact .inr (.inl ⟨rfl, step_idle hphase⟩)
  · rcases hwait : s.waiting with _ | n
    · exact .inl ⟨rfl, rfl, step_complete hphase hwait⟩
    · exact .inr (.inr ⟨n, rfl, rfl, step_waiting hphase hwait⟩)

theorem engineStep_next (s : State) : ∃ t, engineStep s = .next t := by
  rcases h : decode s.cmd with r | i
  · exact ⟨_, engineStep_illegal h⟩
  · rw [engineStep_decoded h]
    exact exec_next i s

theorem hostStep_next (s : State) : ∃ t, hostStep s = .next t := by
  rcases h : s.inputs with _ | ⟨i, rest⟩
  · exact ⟨_, hostStep_nil h⟩
  · rw [hostStep_cons h]
    obtain ⟨t, ht, -⟩ := serve_cases (s.withInputs rest) i
    exact ⟨t, ht⟩

/-- Settles O6: the engine completes whatever it holds, and every host step is taken. -/
theorem stepAlwaysAnswersNext : Obligations.StepAlwaysAnswersNext := by
  intro s
  obtain ⟨-, -, h⟩ | ⟨-, h⟩ | ⟨n, -, -, h⟩ := step_cases s <;> rw [h]
  · exact engineStep_next s
  · exact hostStep_next s
  · exact hostStep_next _

end Sys2Proof.Machine
end

section
/-! ## What one step can do (R24, R42, R60, R65, R78, R104) -/
namespace Sys2Proof.Machine

/-! ### The stages of a pipeline (R99, R101) -/

theorem runStage_eq_ok_iff {cap : Nat} {engine : Engine} {y : Bits} {r : Res} :
    runStage cap engine y = .ok r ↔ stageOk cap engine y r := by
  rw [runStage]
  rcases hengine : engine y with e | r'
  · simp [hengine]
  · by_cases hcap : cap < r'.out.length
    · simp only [if_pos hcap, stageOk, hengine, reduceCtorEq, Except.ok.injEq, false_iff, not_and]
      rintro rfl
      omega
    · simp only [if_neg hcap, stageOk, hengine, Except.ok.injEq]
      constructor
      · rintro rfl
        exact ⟨rfl, Nat.le_of_not_lt hcap⟩
      · exact fun h => h.1

theorem runStage_eq_error_iff {cap : Nat} {engine : Engine} {y : Bits} {e : HardError} :
    runStage cap engine y = .error e ↔ stageRaises cap engine y e := by
  rw [runStage]
  rcases hengine : engine y with e' | r'
  · simp [stageRaises, hengine]
  · by_cases hcap : cap < r'.out.length <;> simp [stageRaises, hengine, hcap, eq_comm]

section
variable {cap : Nat} {u1 u2 u3 : StageUnit} {publish : Res → Res → Res → Res} {x : Bits} {t1 t2 t3 : Res} {e : HardError}

theorem runStages_of_raises_first (h1 : stageRaises cap u1.2 x e) :
    runStages cap u1 u2 u3 publish x = { res := Res.abort e (some u1.1) {}, stages := [] } := by
  simp only [runStages, runStage_eq_error_iff.mpr h1]

theorem runStages_of_raises_second (h1 : stageOk cap u1.2 x t1) (h2 : stageRaises cap u2.2 t1.out e) :
    runStages cap u1 u2 u3 publish x = { res := Res.abort e (some u2.1) t1.diag, stages := [t1.out] } := by
  simp only [runStages, runStage_eq_ok_iff.mpr h1, runStage_eq_error_iff.mpr h2]

theorem runStages_of_raises_third (h1 : stageOk cap u1.2 x t1) (h2 : stageOk cap u2.2 t1.out t2)
    (h3 : stageRaises cap u3.2 t2.out e) :
    runStages cap u1 u2 u3 publish x
      = { res := Res.abort e (some u3.1) (t1.diag.or t2.diag), stages := [t1.out, t2.out] } := by
  simp only [runStages, runStage_eq_ok_iff.mpr h1, runStage_eq_ok_iff.mpr h2, runStage_eq_error_iff.mpr h3]

theorem runStages_of_ok (h1 : stageOk cap u1.2 x t1) (h2 : stageOk cap u2.2 t1.out t2) (h3 : stageOk cap u3.2 t2.out t3) :
    runStages cap u1 u2 u3 publish x = { res := publish t1 t2 t3, stages := [t1.out, t2.out, t3.out] } := by
  simp only [runStages, runStage_eq_ok_iff.mpr h1, runStage_eq_ok_iff.mpr h2, runStage_eq_ok_iff.mpr h3]

end

theorem stageOk_or_raises (cap : Nat) (engine : Engine) (y : Bits) :
    (∃ r, stageOk cap engine y r) ∨ ∃ e, stageRaises cap engine y e := by
  rcases h : runStage cap engine y with e | r
  · exact .inr ⟨e, runStage_eq_error_iff.mp h⟩
  · exact .inl ⟨r, runStage_eq_ok_iff.mp h⟩

/-- The three stages all complete, or the run is an abort, which keeps the outputs of the stages that completed (R108). -/
theorem runStages_cases (cap : Nat) (u1 u2 u3 : StageUnit) (publish : Res → Res → Res → Res) (x : Bits) :
    (∃ t1 t2 t3, stageOk cap u1.2 x t1 ∧ stageOk cap u2.2 t1.out t2 ∧ stageOk cap u3.2 t2.out t3 ∧
      runStages cap u1 u2 u3 publish x = { res := publish t1 t2 t3, stages := [t1.out, t2.out, t3.out] }) ∨
    (∃ e stage diag stages, (∀ z ∈ stages, z.length ≤ cap) ∧
      runStages cap u1 u2 u3 publish x = { res := Res.abort e (some stage) diag, stages := stages }) := by
  obtain ⟨t1, h1⟩ | ⟨e, h1⟩ := stageOk_or_raises cap u1.2 x
  case inr => exact .inr ⟨_, _, _, _, by simp, runStages_of_raises_first h1⟩
  obtain ⟨t2, h2⟩ | ⟨e, h2⟩ := stageOk_or_raises cap u2.2 t1.out
  case inr => exact .inr ⟨_, _, _, _, by simp [h1.2], runStages_of_raises_second h1 h2⟩
  obtain ⟨t3, h3⟩ | ⟨e, h3⟩ := stageOk_or_raises cap u3.2 t2.out
  case inr => exact .inr ⟨_, _, _, _, by simp [h1.2, h2.2], runStages_of_raises_third h1 h2 h3⟩
  exact .inl ⟨t1, t2, t3, h1, h2, h3, runStages_of_ok h1 h2 h3⟩

/-! ### What the engines answer -/

/-- A record an engine answers with: no hard error, CORR and SYNDROME in agreement, and a syndrome that fits its register. -/
structure Res.Sound (r : Res) : Prop where
  noError : r.err = none
  noStage : r.errStage = none
  syndromeFits : r.syndrome < 2 ^ 20
  cleanIff : r.corr = .clean ↔ r.syndrome = 0
  flagged : r.corr = .uncorrectable → r.diag.uncorrectable = true

/-- An engine answers with sound records on the strings that fit a length register. -/
def Engine.Sound (engine : Engine) : Prop := ∀ ⦃y r⦄, y.length < 2 ^ 20 → engine y = .ok r → r.Sound

/-- A record in which only the string, VALID, DIAG and the check values are other than in RES0. -/
structure Res.Uncorrected (r : Res) : Prop where
  noError : r.err = none
  noStage : r.errStage = none
  clean : r.corr = .clean
  noSyndrome : r.syndrome = 0

theorem Res.Uncorrected.sound {r : Res} (h : r.Uncorrected) : r.Sound where
  noError := h.noError
  noStage := h.noStage
  syndromeFits := by simp [h.noSyndrome]
  cleanIff := by simp [h.clean, h.noSyndrome]
  flagged := by simp [h.clean]

theorem Engine.sound_of_uncorrected {engine : Engine} (h : ∀ y r, engine y = .ok r → r.Uncorrected) : engine.Sound :=
  fun y r _ hr => (h y r hr).sound

/-- An engine with one outcome, which sets nothing but the string, VALID, DIAG and the check values. -/
theorem Engine.sound_of_total {engine : Engine} (answer : Bits → Res) (heq : ∀ y, engine y = .ok (answer y))
    (h : ∀ y, (answer y).Uncorrected) : engine.Sound :=
  Engine.sound_of_uncorrected fun y r hr => by
    rw [heq, Except.ok.injEq] at hr
    exact hr ▸ h y

theorem ccEnc_sound : Engine.Sound ccEnc := Engine.sound_of_uncorrected fun x r h => by
  by_cases hle : (padLeft8 x).length / 8 ≤ 255
  · rw [ccEnc_ok hle] at h
    cases h
    exact ⟨rfl, rfl, rfl, rfl⟩
  · rw [ccEnc_large (Nat.lt_of_not_le hle)] at h
    cases h

theorem ccDec_sound : Engine.Sound ccDec := Engine.sound_of_uncorrected fun f r h => by
  by_cases hshort : f.length < 8
  · rw [ccDec_short hshort] at h
    cases h
  · rw [ccDec_ok (Nat.le_of_not_lt hshort)] at h
    cases h
    exact ⟨rfl, rfl, rfl, rfl⟩

theorem byteEnc_sound : Engine.Sound byteEnc := Engine.sound_of_total _ (fun _ => rfl) fun _ => ⟨rfl, rfl, rfl, rfl⟩

theorem byteDec_sound : Engine.Sound byteDec := Engine.sound_of_total _ (fun _ => rfl) fun _ => ⟨rfl, rfl, rfl, rfl⟩

theorem bitEnc_sound : Engine.Sound bitEnc := Engine.sound_of_total _ (fun _ => rfl) fun _ => ⟨rfl, rfl, rfl, rfl⟩

theorem bitDec_sound : Engine.Sound bitDec := Engine.sound_of_total _ (fun _ => rfl) fun _ => ⟨rfl, rfl, rfl, rfl⟩

theorem parEnc_sound : Engine.Sound parEnc := Engine.sound_of_total _ (fun _ => rfl) fun _ => ⟨rfl, rfl, rfl, rfl⟩

theorem parVer_sound (P : Nat) : Engine.Sound (parVer P) := Engine.sound_of_uncorrected fun y r h => by
  by_cases hshort : y.length < P + 1
  · rw [parVer_short hshort] at h
    cases h
    exact ⟨rfl, rfl, rfl, rfl⟩
  · rw [parVer_ok (Nat.le_of_not_lt hshort)] at h
    cases h
    exact ⟨rfl, rfl, rfl, rfl⟩

theorem csEnc_sound : Engine.Sound csEnc := Engine.sound_of_total _ (fun _ => rfl) fun _ => ⟨rfl, rfl, rfl, rfl⟩

theorem csVer_sound : Engine.Sound csVer := Engine.sound_of_uncorrected fun y r h => by
  by_cases hbad : y.length % 8 ≠ 0 ∨ y.length < 16
  · rw [csVer_misaligned hbad] at h
    cases h
  · rw [csVer_ok hbad] at h
    cases h
    exact ⟨rfl, rfl, rfl, rfl⟩

theorem crcEnc_sound : Engine.Sound crcEnc := Engine.sound_of_total _ (fun _ => rfl) fun _ => ⟨rfl, rfl, rfl, rfl⟩

theorem crcVer_sound : Engine.Sound crcVer := Engine.sound_of_total _ (fun _ => rfl) fun _ => ⟨rfl, rfl, rfl, rfl⟩

theorem crcStrip_sound (Q : Nat) : Engine.Sound (crcStrip Q) := Engine.sound_of_uncorrected fun y r h => by
  by_cases hshort : y.length < 32 + Q
  · rw [crcStrip_short hshort] at h
    cases h
    exact ⟨rfl, rfl, rfl, rfl⟩
  · rw [crcStrip_ok (Nat.le_of_not_lt hshort)] at h
    cases h
    exact ⟨rfl, rfl, rfl, rfl⟩

theorem crcRx_sound (Q : Nat) : Engine.Sound (crcRx Q) :=
  Engine.sound_of_total _ (crcRx_eq Q) fun _ => by split <;> exact ⟨rfl, rfl, rfl, rfl⟩

theorem hamEnc_sound : Engine.Sound hamEnc := Engine.sound_of_total _ (fun _ => rfl) fun _ => ⟨rfl, rfl, rfl, rfl⟩

/-- The one engine that sets CORR and SYNDROME (R96). -/
theorem hamDec_sound : Engine.Sound hamDec := by
  intro y r hlen h
  rw [hamDec_eq, Except.ok.injEq] at h
  subst h
  refine ⟨rfl, rfl, syndromeOf_lt hlen, ?_, ?_⟩
  · by_cases hclean : syndromeOf y = 0
    · simp [hclean]
    · by_cases hle : syndromeOf y ≤ y.length <;> simp [hclean, hle]
  · by_cases hle : syndromeOf y ≤ y.length
    · by_cases hclean : syndromeOf y = 0 <;> simp [hclean, hle]
    · simp [Nat.lt_of_not_le hle]

theorem ident_sound : Engine.Sound ident := Engine.sound_of_total _ (fun _ => rfl) fun _ => ⟨rfl, rfl, rfl, rfl⟩

theorem identOk_sound : Engine.Sound identOk := Engine.sound_of_total _ (fun _ => rfl) fun _ => ⟨rfl, rfl, rfl, rfl⟩

/-- The engine of a unit command, with the pads P and Q; XFER and the pipeline commands have none (R22, R75). -/
def unitEngine (P Q : Nat) : Instr → Option Engine
  | .ccEnc => some ccEnc
  | .ccDec => some ccDec
  | .byteEnc => some byteEnc
  | .byteDec => some byteDec
  | .bitEnc => some bitEnc
  | .bitDec => some bitDec
  | .parEnc => some parEnc
  | .parVer => some (parVer P)
  | .csEnc => some csEnc
  | .csVer => some csVer
  | .crcEnc => some crcEnc
  | .crcVer => some crcVer
  | .crcStrip => some (crcStrip Q)
  | .hamEnc => some hamEnc
  | .hamDec => some hamDec
  | .xfer | .pipeTx | .pipeRx => none

/-- A unit command is the completion of its engine (R75). -/
theorem exec_of_unitEngine {s : State} {i : Instr} {engine : Engine} (h : unitEngine s.parityPad s.crcPad i = some engine) :
    exec i s = .next (s.completeUnit engine) := by
  cases i <;> cases h <;> rfl

theorem unitEngine_of_unit (P Q : Nat) {i : Instr} (h : i ∉ [Instr.xfer, .pipeTx, .pipeRx]) :
    ∃ engine, unitEngine P Q i = some engine := by
  cases i <;> simp [unitEngine] at h ⊢

theorem unitEngine_sound {P Q : Nat} {i : Instr} {engine : Engine} (h : unitEngine P Q i = some engine) : engine.Sound := by
  cases i <;> cases h
  case ccEnc => exact ccEnc_sound
  case ccDec => exact ccDec_sound
  case byteEnc => exact byteEnc_sound
  case byteDec => exact byteDec_sound
  case bitEnc => exact bitEnc_sound
  case bitDec => exact bitDec_sound
  case parEnc => exact parEnc_sound
  case parVer => exact parVer_sound P
  case csEnc => exact csEnc_sound
  case csVer => exact csVer_sound
  case crcEnc => exact crcEnc_sound
  case crcVer => exact crcVer_sound
  case crcStrip => exact crcStrip_sound Q
  case hamEnc => exact hamEnc_sound
  case hamDec => exact hamDec_sound

theorem Framing.encoder_sound (f : Framing) : f.encoder.Sound := by
  cases f
  case charCount => exact ccEnc_sound
  case bitStuff => exact bitEnc_sound
  case byteStuff => exact byteEnc_sound

theorem Framing.decoder_sound (f : Framing) : f.decoder.Sound := by
  cases f
  case charCount => exact ccDec_sound
  case bitStuff => exact bitDec_sound
  case byteStuff => exact byteDec_sound

theorem Correction.encoder_sound (k : Correction) : k.encoder.Sound := by
  cases k
  case none => exact ident_sound
  case hamming => exact hamEnc_sound

theorem Correction.decoder_sound (k : Correction) : k.decoder.Sound := by
  cases k
  case none => exact ident_sound
  case hamming => exact hamDec_sound

theorem Detection.encoder_sound (d : Detection) : d.encoder.Sound := by
  cases d
  case none => exact ident_sound
  case parity => exact parEnc_sound
  case checksum => exact csEnc_sound
  case crc32 => exact crcEnc_sound

theorem Detection.decoder_sound (P Q : Nat) (d : Detection) : (d.decoder P Q).Sound := by
  cases d
  case none => exact identOk_sound
  case parity => exact parVer_sound P
  case checksum => exact csVer_sound
  case crc32 => exact crcRx_sound Q

/-! ### The record a completion writes -/

/-- A record that a completion may write: its string fits OUT, its syndrome its register, a hard error leaves the other results
0 (R108), ERR_STAGE comes with an error alone (U13), and CORR, SYNDROME and DIAG agree (R96). -/
structure Res.WellFormed (cap : Nat) (r : Res) : Prop where
  fits : r.out.length ≤ cap
  syndromeFits : r.syndrome < 2 ^ 20
  errorClears : r.err ≠ none → r.valid = false ∧ r.corr = .clean ∧ r.syndrome = 0 ∧ r.crcValue = 0 ∧ r.csumValue = 0
  stageNeedsError : r.err = none → r.errStage = none
  cleanIff : r.corr = .clean ↔ r.syndrome = 0
  flagged : r.corr = .uncorrectable → r.diag.uncorrectable = true

theorem Res.Sound.wellFormed {cap : Nat} {r : Res} (h : r.Sound) (hfits : r.out.length ≤ cap) : r.WellFormed cap :=
  { h with fits := hfits, errorClears := fun herr => absurd h.noError herr, stageNeedsError := fun _ => h.noStage }

theorem Res.abort_wellFormed (cap : Nat) (e : HardError) (stage : Option Stage) (diag : Diag) :
    (Res.abort e stage diag).WellFormed cap where
  fits := Nat.zero_le cap
  syndromeFits := Nat.two_pow_pos 20
  errorClears _ := ⟨rfl, rfl, rfl, rfl, rfl⟩
  stageNeedsError h := nomatch h
  cleanIff := iff_of_true rfl rfl
  flagged h := nomatch h

theorem guardOutput_wellFormed {r : Res} (h : r.Sound) (p : Params) : (guardOutput p r).WellFormed p.maxOutBits := by
  unfold guardOutput
  split
  case isTrue => exact Res.abort_wellFormed _ _ _ _
  case isFalse hfits => exact h.wellFormed (Nat.le_of_not_lt fun hlong => hfits ⟨h.noError, hlong⟩)

theorem State.inString_length_lt (s : State) : s.inString.length < 2 ^ 20 := by
  rw [State.inString_length]
  exact s.inLen.isLt

theorem unitResult_wellFormed (s : State) {engine : Engine} (h : engine.Sound) :
    (unitResult s engine).WellFormed s.params.maxOutBits := by
  unfold unitResult
  split
  case isTrue => exact Res.abort_wellFormed _ _ _ _
  case isFalse =>
    split
    case h_1 => exact Res.abort_wellFormed _ _ _ _
    case h_2 r hr => exact guardOutput_wellFormed (h s.inString_length_lt hr) s.params

/-- What a pipeline command leaves, when it keeps to the capacity of OUT and the traces. -/
structure PipeOutcome.WellFormed (cap : Nat) (o : PipeOutcome) : Prop where
  res : o.res.WellFormed cap
  stages : ∀ z ∈ o.stages, z.length ≤ cap

theorem runStages_wellFormed {cap : Nat} {u1 u2 u3 : StageUnit} {publish : Res → Res → Res → Res} {x : Bits}
    (hcap : cap < 2 ^ 20) (hx : x.length < 2 ^ 20) (h1 : u1.2.Sound) (h2 : u2.2.Sound) (h3 : u3.2.Sound)
    (hpublish : ∀ t1 t2 t3 : Res, t1.Sound → t2.Sound → t3.Sound → (publish t1 t2 t3).Sound ∧ (publish t1 t2 t3).out = t3.out) :
    (runStages cap u1 u2 u3 publish x).WellFormed cap := by
  obtain ⟨t1, t2, t3, ⟨he1, hl1⟩, ⟨he2, hl2⟩, ⟨he3, hl3⟩, hrun⟩ | ⟨e, stage, diag, stages, hlen, hrun⟩ :=
    runStages_cases cap u1 u2 u3 publish x
  · obtain ⟨hsound, hout⟩ := hpublish t1 t2 t3 (h1 hx he1) (h2 (by omega) he2) (h3 (by omega) he3)
    rw [hrun]
    exact ⟨hsound.wellFormed (hout ▸ hl3), by simp [hl1, hl2, hl3]⟩
  · rw [hrun]
    exact ⟨Res.abort_wellFormed _ _ _ _, hlen⟩

theorem publishTx_sound (t1 t2 t3 : Res) : (publishTx t1 t2 t3).Sound := Res.Uncorrected.sound ⟨rfl, rfl, rfl, rfl⟩

theorem publishRx_sound {t2 : Res} (t1 t3 : Res) (h2 : t2.Sound) : (publishRx t1 t2 t3).Sound where
  noError := rfl
  noStage := rfl
  syndromeFits := h2.syndromeFits
  cleanIff := h2.cleanIff
  flagged h := by simp [publishRx, Diag.or, h2.flagged h]

theorem pipeTx_wellFormed {cap : Nat} (cfg : ConfigReg) {x : Bits} (hcap : cap < 2 ^ 20) (hx : x.length < 2 ^ 20) :
    (pipeTx cap cfg x).WellFormed cap := by
  unfold pipeTx
  split
  case h_1 => exact ⟨Res.abort_wellFormed _ _ _ _, List.forall_mem_nil _⟩
  case h_2 f k d _ =>
    exact runStages_wellFormed hcap hx f.encoder_sound k.encoder_sound d.encoder_sound
      fun t1 t2 t3 _ _ _ => ⟨publishTx_sound t1 t2 t3, rfl⟩

theorem pipeRx_wellFormed {cap : Nat} (cfg : ConfigReg) (P Q : Nat) {y : Bits} (hcap : cap < 2 ^ 20) (hy : y.length < 2 ^ 20) :
    (pipeRx cap cfg P Q y).WellFormed cap := by
  unfold pipeRx
  split
  case h_1 => exact ⟨Res.abort_wellFormed _ _ _ _, List.forall_mem_nil _⟩
  case h_2 f k d _ =>
    exact runStages_wellFormed hcap hy (d.decoder_sound P Q) k.decoder_sound f.decoder_sound
      fun t1 t2 t3 _ h2 _ => ⟨publishRx_sound t1 t3 h2, rfl⟩

/-- The output check changes no record whose string fits. -/
theorem guardOutput_of_fits {p : Params} {r : Res} (h : r.out.length ≤ p.maxOutBits) : guardOutput p r = r :=
  if_neg fun hlong => absurd h (Nat.not_le.mpr hlong.2)

/-! ### What a completion leaves -/

/-- What the completion of the held word leaves. The capacities of R8 are what bounds the lengths. -/
inductive State.Completed (s : State) : State → Prop
  | xferCopied (hcmd : s.cmd = 0x00000001) (hfits : s.outLen.toNat ≤ s.params.maxInBits) :
      s.Completed ((s.writeIn s.outString).writeResult {})
  | xferRefused (hcmd : s.cmd = 0x00000001) : s.Completed (s.writeResult (Res.abort .capacity none {}))
  | unit (r : Res) (hr : r.WellFormed s.params.maxOutBits) : s.Completed (s.complete r)
  | pipe (hcmd : s.cmd = 0x00000040 ∨ s.cmd = 0x00000041) (r : Res) (stages : List Bits)
      (hr : s.params.wf → PipeOutcome.WellFormed s.params.maxOutBits ⟨r, stages⟩) :
      s.Completed ((s.complete r).writeTraces stages)

theorem maxOutBits_lt {p : Params} (h : p.wf) : p.maxOutBits < 2 ^ 20 := by
  obtain ⟨-, -, -, -, hle⟩ := h
  omega

/-- The completion of a pipeline command whose rule keeps to the capacities. -/
theorem State.exists_completePipe_eq {s : State} {rule : Bits → PipeOutcome}
    (hrule : s.params.wf → (rule s.inString).WellFormed s.params.maxOutBits) :
    ∃ r stages, s.completePipe rule = (s.complete r).writeTraces stages ∧
      (s.params.wf → PipeOutcome.WellFormed s.params.maxOutBits ⟨r, stages⟩) := by
  rw [State.completePipe_eq]
  split
  case isTrue => exact ⟨_, _, rfl, fun _ => ⟨Res.abort_wellFormed _ _ _ _, List.forall_mem_nil _⟩⟩
  case isFalse =>
    refine ⟨_, _, rfl, fun hwf => ?_⟩
    obtain ⟨hres, hstages⟩ := hrule hwf
    exact ⟨(guardOutput_of_fits hres.fits).symm ▸ hres, hstages⟩

theorem exec_pipe {i : Instr} (hi : i ∈ [Instr.pipeTx, .pipeRx]) (s : State) :
    ∃ r stages, exec i s = .next ((s.complete r).writeTraces stages) ∧
      (s.params.wf → PipeOutcome.WellFormed s.params.maxOutBits ⟨r, stages⟩) := by
  fin_cases hi
  · obtain ⟨r, stages, heq, ho⟩ := State.exists_completePipe_eq (s := s) fun hwf =>
      pipeTx_wellFormed s.config (maxOutBits_lt hwf) s.inString_length_lt
    exact ⟨r, stages, congrArg _ heq, ho⟩
  · obtain ⟨r, stages, heq, ho⟩ := State.exists_completePipe_eq (s := s) fun hwf =>
      pipeRx_wellFormed s.config s.parityPad s.crcPad (maxOutBits_lt hwf) s.inString_length_lt
    exact ⟨r, stages, congrArg _ heq, ho⟩

theorem engineStep_completed {s t : State} (h : engineStep s = .next t) : s.Completed t := by
  rcases hdecode : decode s.cmd with r | i
  · rw [engineStep_illegal hdecode] at h
    cases h
    exact .unit _ (Res.abort_wellFormed _ _ _ _)
  · rw [engineStep_decoded hdecode] at h
    have hcmd : s.cmd = encode i := (decode_eq_ok_iff _ _).mp hdecode
    by_cases hunit : i ∉ [Instr.xfer, .pipeTx, .pipeRx]
    · obtain ⟨engine, hengine⟩ := unitEngine_of_unit s.parityPad s.crcPad hunit
      rw [exec_of_unitEngine hengine] at h
      cases h
      exact .unit _ (unitResult_wellFormed s (unitEngine_sound hengine))
    by_cases hpipe : i ∈ [Instr.pipeTx, .pipeRx]
    · obtain ⟨r, stages, hexec, ho⟩ := exec_pipe hpipe s
      rw [hexec] at h
      cases h
      refine .pipe ?_ r stages ho
      fin_cases hpipe
      · exact .inl hcmd
      · exact .inr hcmd
    · obtain rfl : i = .xfer := by simpa [hpipe] using hunit
      by_cases hfits : s.outLen.toNat ≤ s.params.maxInBits
      · rw [exec_xfer_of_fits hfits] at h
        cases h
        exact .xferCopied hcmd hfits
      · rw [exec_xfer_of_too_long (Nat.lt_of_not_le hfits)] at h
        cases h
        exact .xferRefused hcmd

/-! ### What a step of the outside world leaves -/

/-- What an input of the outside world leaves: a failed access, a read, a write at an aligned offset of the aperture, or reset. -/
inductive State.Served (s : State) : Input → State → Prop
  | failed (i : Input) (f : Fault) : s.Served i (s.respond (.failed f))
  | read (addr width : Nat) (w : Word) : s.Served (.read addr width) (s.countDraw.respond (.data w))
  | write (off : Nat) (v : Word) (hoff : off < apertureBytes) (haligned : (s.params.blockBase + off) % 4 = 0) :
      s.Served (.write (s.params.blockBase + off) 4 v) ((s.writeTarget v (targetOf off)).respond .ack)
  | reset : s.Served .reset s.assertReset

/-- An access the block takes is 4 bytes wide, aligned and in the aperture (R49, R50). -/
theorem busOffset_eq_ok {p : Params} {addr width off : Nat} (h : busOffset p addr width = .ok off) :
    addr = p.blockBase + off ∧ width = 4 ∧ off < apertureBytes ∧ addr % 4 = 0 := by
  unfold busOffset at h
  split_ifs at h with haperture hrefused
  cases h
  refine ⟨by omega, by omega, by omega, by omega⟩

theorem serve_served {s t : State} {i : Input} (h : serve s i = .next t) : s.Served i t := by
  cases i with
  | read addr width =>
    rcases hbus : busOffset s.params addr width with f | off
    · rw [serve_of_fault (f := f) (by simp only [hostAccess, hbus])] at h
      cases h
      exact .failed _ f
    · rw [serve, hostAccess, hbus] at h
      cases h
      exact .read addr width _
  | write addr width v =>
    rcases hbus : busOffset s.params addr width with f | off
    · rw [serve_of_fault (f := f) (by simp only [hostAccess, hbus])] at h
      cases h
      exact .failed _ f
    · rw [serve, hostAccess, hbus] at h
      cases h
      obtain ⟨rfl, rfl, hoff, haligned⟩ := busOffset_eq_ok hbus
      exact .write off v hoff haligned
  | reset =>
    cases h
    exact .reset

/-- What one step leaves: the completion that is due, or an input served (or none left) with `n` host steps still to wait. -/
inductive State.Stepped (s : State) : State → Prop
  | completed {t : State} (hbusy : s.phase = .busy) (hdue : s.waiting = 0) (ht : s.Completed t) : s.Stepped t
  | quiet (n : Nat) (hn : (s.phase = .idle ∧ n = s.waiting) ∨ (s.phase = .busy ∧ s.waiting = n + 1)) :
      s.Stepped (s.withWaiting n)
  | served {t : State} (n : Nat) (hn : (s.phase = .idle ∧ n = s.waiting) ∨ (s.phase = .busy ∧ s.waiting = n + 1)) (i : Input)
      (rest : List Input) (hinputs : s.inputs = i :: rest) (ht : ((s.withWaiting n).withInputs rest).Served i t) : s.Stepped t

theorem hostStep_stepped {s t : State} (n : Nat)
    (hn : (s.phase = .idle ∧ n = s.waiting) ∨ (s.phase = .busy ∧ s.waiting = n + 1))
    (h : hostStep (s.withWaiting n) = .next t) : s.Stepped t := by
  rcases hinputs : s.inputs with _ | ⟨i, rest⟩
  · rw [hostStep_nil (s := s.withWaiting n) hinputs] at h
    cases h
    exact .quiet n hn
  · rw [hostStep_cons (s := s.withWaiting n) hinputs] at h
    exact .served n hn i rest hinputs (serve_served h)

theorem step_stepped {s t : State} (h : step s = .next t) : s.Stepped t := by
  obtain ⟨hbusy, hdue, hstep⟩ | ⟨hidle, hstep⟩ | ⟨n, hbusy, hwait, hstep⟩ := step_cases s <;> rw [hstep] at h
  · exact .completed hbusy hdue (engineStep_completed h)
  · exact hostStep_stepped s.waiting (.inl ⟨hidle, rfl⟩) h
  · exact hostStep_stepped n (.inr ⟨hbusy, hwait⟩) h

end Sys2Proof.Machine
end

section
/-! ## The invariant (R8, R28, R33, R37, R39, R41, R42, R108) -/
namespace Sys2Proof.Machine

/-! ### Reset establishes it -/

theorem bufferInv_nil (cap : Nat) : BufferInv [] cap 0 where
  canonical := List.Pairwise.nil
  withinCap := List.forall_mem_nil _
  lenWithinCap := Nat.zero_le cap
  written i h := absurd h (Nat.not_lt_zero i)

theorem State.resetWith_inv {p : Params} (l : List Nat) (ins : List Input) (d : Nat) (h : p.wf) :
    (State.resetWith p l ins d).Inv where
  params := h
  inCanonical := List.Pairwise.nil
  inWithinCap := List.forall_mem_nil _
  out := bufferInv_nil _
  trace0 := bufferInv_nil _
  trace1 := bufferInv_nil _
  trace2 := bufferInv_nil _
  busyNotDone h := nomatch h
  idleNotWaiting _ := rfl
  errorClears h := absurd rfl h
  stageNeedsError _ := rfl

theorem State.resetWith_corrAgrees (p : Params) (l : List Nat) (ins : List Input) (d : Nat) :
    (State.resetWith p l ins d).CorrAgrees where
  cleanIff := iff_of_true rfl rfl
  flagged h := nomatch h

/-- Settles O20: `State.reset` is the reset of the default parameters, which R8 allows. -/
theorem invariantHoldsAtReset : Obligations.InvariantHoldsAtReset :=
  ⟨fun p l ins d h => ⟨State.resetWith_inv l ins d h, State.resetWith_corrAgrees p l ins d⟩,
    State.resetWith_inv [] [] 0 (by decide), State.resetWith_corrAgrees _ _ _ _⟩

/-! ### Buffers keep it -/

/-- A buffer into which a string that fits was written from its start, with the string's length. -/
theorem BufferInv.write {m : BitMem} {cap : Nat} {len : BitVec 20} (h : BufferInv m cap len) {x : Bits} (hfits : x.length ≤ cap)
    (hcap : cap < 2 ^ 20) : BufferInv (m.write 0 x) cap (BitVec.ofNat 20 x.length) := by
  have hlen : (BitVec.ofNat 20 x.length).toNat = x.length := Nat.mod_eq_of_lt (by omega)
  refine ⟨BitMem.write_wf h.canonical 0 x, BitMem.write_within h.withinCap (by omega), hlen.symm ▸ hfits, fun i hi => ?_⟩
  rw [hlen] at hi
  have hget := BitMem.get_write_inside m 0 x i hi
  rw [Nat.zero_add] at hget
  rw [hget, List.getElem?_eq_getElem hi]
  rfl

/-- A buffer whose length register is cleared shows nothing. -/
theorem BufferInv.clear {m : BitMem} {cap : Nat} {len : BitVec 20} (h : BufferInv m cap len) : BufferInv m cap 0 :=
  { h with lenWithinCap := Nat.zero_le cap, written := fun i hi => absurd hi (Nat.not_lt_zero i) }

theorem BufferInv.traceAfter {m : BitMem} {cap : Nat} {len : BitVec 20} (h : BufferInv m cap len) {recorded : Option Bits}
    (hfits : ∀ x ∈ recorded, x.length ≤ cap) (hcap : cap < 2 ^ 20) :
    BufferInv (traceAfter m recorded).1 cap (traceAfter m recorded).2 := by
  cases recorded with
  | none => exact h.clear
  | some x => exact h.write (hfits x rfl) hcap

/-- What a trace records is the output of a stage. -/
theorem mem_of_recorded {enabled : Bool} {stages : List Bits} {k : Nat} {x : Bits}
    (h : x ∈ (if enabled then stages else [])[k]?) : x ∈ stages := by
  split at h
  · exact List.mem_of_getElem? h
  · cases h

/-! ### Every operation keeps it -/

section
variable {s : State}

theorem State.Inv.respond (h : s.Inv) (r : Response) : (s.respond r).Inv := { h with }

theorem State.Inv.countDraw (h : s.Inv) : s.countDraw.Inv := { h with }

theorem State.Inv.withInputs (h : s.Inv) (rest : List Input) : (s.withInputs rest).Inv := { h with }

theorem State.Inv.withWaiting (h : s.Inv) {n : Nat} (hn : (s.phase = .idle ∧ n = s.waiting) ∨ (s.phase = .busy ∧ s.waiting = n + 1)) :
    (s.withWaiting n).Inv :=
  { h with
    idleNotWaiting := fun hidle => by
      obtain ⟨-, rfl⟩ | ⟨hbusy, -⟩ := hn
      · exact h.idleNotWaiting hidle
      · rw [State.withWaiting_phase, hbusy] at hidle
        cases hidle }

theorem State.Inv.writeStatus (h : s.Inv) (v : Word) : (s.writeStatus v).Inv := { h with }

theorem State.Inv.setOverrun (h : s.Inv) : s.setOverrun.Inv := { h with }

theorem State.Inv.accept (h : s.Inv) (v : Word) : (s.accept v).Inv :=
  { h with busyNotDone := fun _ => rfl, idleNotWaiting := nofun }

theorem State.Inv.writeConfig (h : s.Inv) (v : Word) : (s.writeConfig v).Inv := { h with }

theorem State.Inv.writePads (h : s.Inv) (v : Word) : (s.writePads v).Inv := { h with }

theorem State.Inv.writeInLen (h : s.Inv) (v : Word) : (s.writeInLen v).Inv := { h with }

theorem State.Inv.writeInWord (h : s.Inv) (k : Nat) (v : Word) : (s.writeInWord k v).Inv := by
  unfold State.writeInWord
  split
  case isFalse => exact h
  case isTrue hk =>
    have hfits : 32 * k + (bitsOf v).length ≤ s.params.maxInBits := by rw [length_bitsOf]; omega
    exact { h with
      inCanonical := BitMem.write_wf h.inCanonical _ _
      inWithinCap := BitMem.write_within h.inWithinCap hfits }

theorem State.Inv.writeTarget (h : s.Inv) (v : Word) (tgt : Target) : (s.writeTarget v tgt).Inv := by
  obtain heq | heq | ⟨-, heq⟩ | ⟨-, heq | heq | heq | heq | ⟨k, heq⟩⟩ := s.writeTarget_cases v tgt <;> rw [heq]
  · exact h
  · exact h.writeStatus v
  · exact h.setOverrun
  · exact h.accept v
  · exact h.writeConfig v
  · exact h.writePads v
  · exact h.writeInLen v
  · exact h.writeInWord k v

theorem State.Inv.writeOut (h : s.Inv) {x : Bits} (hfits : x.length ≤ s.params.maxOutBits) : (s.writeOut x).Inv :=
  { h with out := h.out.write hfits (maxOutBits_lt h.params) }

theorem State.Inv.writeIn (h : s.Inv) {x : Bits} (hfits : x.length ≤ s.params.maxInBits) : (s.writeIn x).Inv :=
  { h with
    inCanonical := BitMem.write_wf h.inCanonical 0 x
    inWithinCap := BitMem.write_within h.inWithinCap ((Nat.zero_add _).trans_le hfits) }

theorem State.Inv.writeResult (h : s.Inv) {r : Res} {cap : Nat} (hr : r.WellFormed cap) : (s.writeResult r).Inv :=
  { h with
    busyNotDone := nofun
    idleNotWaiting := fun _ => rfl
    errorClears := fun herr => by
      obtain ⟨hvalid, hcorr, hsyn, hcrc, hcsum⟩ := hr.errorClears herr
      refine ⟨hvalid, hcorr, ?_, hcrc, hcsum⟩
      rw [State.writeResult_syndrome, hsyn]
      rfl
    stageNeedsError := hr.stageNeedsError }

theorem State.Inv.complete (h : s.Inv) {r : Res} (hr : r.WellFormed s.params.maxOutBits) : (s.complete r).Inv :=
  (h.writeOut hr.fits).writeResult hr

theorem State.Inv.writeTraces (h : s.Inv) {stages : List Bits} (hfits : ∀ x ∈ stages, x.length ≤ s.params.maxOutBits) :
    (s.writeTraces stages).Inv := by
  have hrecorded (k : Nat) : ∀ x ∈ (if s.config.traceEn then stages else [])[k]?, x.length ≤ s.params.maxOutBits :=
    fun x hx => hfits x (mem_of_recorded hx)
  have hcap := maxOutBits_lt h.params
  exact { h with
    trace0 := h.trace0.traceAfter (hrecorded 0) hcap
    trace1 := h.trace1.traceAfter (hrecorded 1) hcap
    trace2 := h.trace2.traceAfter (hrecorded 2) hcap }

end

theorem Res.wellFormed_default (cap : Nat) : ({} : Res).WellFormed cap :=
  (Res.Uncorrected.sound ⟨rfl, rfl, rfl, rfl⟩).wellFormed (Nat.zero_le cap)

theorem State.Inv.completed {s t : State} (h : s.Inv) (ht : s.Completed t) : t.Inv := by
  cases ht with
  | xferCopied _ hfits =>
    rw [← State.outString_length] at hfits
    exact (h.writeIn hfits).writeResult (Res.wellFormed_default 0)
  | xferRefused => exact h.writeResult (Res.abort_wellFormed 0 _ _ _)
  | unit r hr => exact h.complete hr
  | pipe _ r stages hr =>
    obtain ⟨hres, hstages⟩ := hr h.params
    exact (h.complete hres).writeTraces hstages

theorem State.Inv.served {s t : State} {i : Input} (h : s.Inv) (ht : s.Served i t) : t.Inv := by
  cases ht with
  | failed => exact h.respond _
  | read => exact h.countDraw.respond _
  | write off v => exact (h.writeTarget v _).respond _
  | reset => exact State.resetWith_inv _ _ _ h.params

/-- Settles O21: whatever a step is, each operation it is made of keeps the invariant. -/
theorem everyStepKeepsTheInvariant : Obligations.EveryStepKeepsTheInvariant := by
  intro s t h hstep
  cases step_stepped hstep with
  | completed _ _ ht => exact h.completed ht
  | quiet n hn => exact h.withWaiting hn
  | served n hn i rest _ ht => exact ((h.withWaiting hn).withInputs rest).served ht

/-! ### CORR, SYNDROME and the UNCORRECTABLE flag (R34, R96) -/

/-- The agreement is about CORR, SYNDROME and DIAG alone. -/
theorem State.CorrAgrees.of_eq {s t : State} (h : s.CorrAgrees) (hcorr : t.corr = s.corr) (hsyn : t.syndrome = s.syndrome)
    (hdiag : t.diag = s.diag) : t.CorrAgrees where
  cleanIff := by rw [hcorr, hsyn, h.cleanIff]
  flagged := by rw [hcorr, hdiag]; exact h.flagged

/-- Twenty bits hold the syndrome, so it is 0 in its register exactly when it is 0. -/
theorem State.writeResult_corrAgrees (s : State) {r : Res} {cap : Nat} (hr : r.WellFormed cap) : (s.writeResult r).CorrAgrees where
  cleanIff := by
    have hreg : BitVec.ofNat 20 r.syndrome = 0 ↔ r.syndrome = 0 := by
      rw [← BitVec.toNat_inj, BitVec.toNat_ofNat, Nat.mod_eq_of_lt hr.syndromeFits]
      rfl
    rw [State.writeResult_corr, State.writeResult_syndrome, hr.cleanIff, hreg]
  flagged := hr.flagged

theorem State.Completed.corrAgrees {s t : State} (hwf : s.params.wf) (ht : s.Completed t) : t.CorrAgrees := by
  cases ht with
  | xferCopied => exact State.writeResult_corrAgrees _ (Res.wellFormed_default 0)
  | xferRefused => exact State.writeResult_corrAgrees _ (Res.abort_wellFormed 0 _ _ _)
  | unit r hr => exact State.writeResult_corrAgrees _ hr
  | pipe _ r stages hr => exact (State.writeResult_corrAgrees (s.writeOut r.out) (hr hwf).res).of_eq rfl rfl rfl

theorem State.writeTarget_corr_syndrome_diag (s : State) (v : Word) (tgt : Target) :
    (s.writeTarget v tgt).corr = s.corr ∧ (s.writeTarget v tgt).syndrome = s.syndrome ∧ (s.writeTarget v tgt).diag = s.diag := by
  obtain heq | heq | ⟨-, heq⟩ | ⟨-, heq | heq | heq | heq | ⟨k, heq⟩⟩ := s.writeTarget_cases v tgt <;> simp [heq]

theorem State.CorrAgrees.served {s t : State} {i : Input} (h : s.CorrAgrees) (ht : s.Served i t) : t.CorrAgrees := by
  cases ht with
  | failed | read => exact h.of_eq rfl rfl rfl
  | write off v =>
    obtain ⟨hcorr, hsyn, hdiag⟩ := s.writeTarget_corr_syndrome_diag v (targetOf off)
    exact h.of_eq hcorr hsyn hdiag
  | reset => exact State.resetWith_corrAgrees _ _ _ _

/-- Settles O22: a completion writes a record in agreement, and the outside world writes none of the three. -/
theorem everyStepKeepsCorrInAgreementWithSyndrome : Obligations.EveryStepKeepsCorrInAgreementWithSyndrome := by
  intro s t hinv h hstep
  cases step_stepped hstep with
  | completed _ _ ht => exact ht.corrAgrees hinv.params
  | quiet n _ => exact h.of_eq rfl rfl rfl
  | served n _ i rest _ ht => exact (h.of_eq rfl rfl rfl : ((s.withWaiting n).withInputs rest).CorrAgrees).served ht

end Sys2Proof.Machine
end

section
/-! ## The bus and the register map (R26, R45, R49, R50) -/
namespace Sys2Proof.Machine

/-! ### The map -/

/-- The windows of the five buffers, at their 64 KiB (R26). -/
theorem targetOf_window {w k : Nat} (hk : k < 0x4000) :
    targetOf (0x10000 * (w + 1) + 4 * k) =
      match w with
      | 0 => .inData k
      | 1 => .outData k
      | 2 => .trace0Data k
      | 3 => .trace1Data k
      | _ => .trace2Data k := by
  have hdiv : (0x10000 * (w + 1) + 4 * k) / 0x10000 = w + 1 := by omega
  have hword : (0x10000 * (w + 1) + 4 * k) % 0x10000 / 4 = k := by omega
  simp only [targetOf, hdiv, hword]
  match w with
  | 0 | 1 | 2 | 3 | _ + 4 => rfl

/-- Past the registers an aligned offset is a word of a window. -/
theorem exists_window {off : Nat} (h : 0x10000 ≤ off) (haligned : off % 4 = 0) :
    ∃ w k, k < 0x4000 ∧ off = 0x10000 * (w + 1) + 4 * k :=
  ⟨off / 0x10000 - 1, off % 0x10000 / 4, by omega, by omega⟩

theorem targetOf_inData {k : Nat} (hk : k < 0x4000) : targetOf (0x10000 + 4 * k) = .inData k := targetOf_window (w := 0) hk

/-- The registers, in the order of their offsets (R26). -/
theorem targetOf_register {off : Nat} (h : off < 0x10000) :
    targetOf off = [Target.cmd, .status, .diag, .config, .pads, .inLen, .outLen, .syndrome, .crcValue, .csumValue, .trace0Len,
      .trace1Len, .trace2Len].getD (off / 4) .reserved := by
  simp only [targetOf, Nat.mod_eq_of_lt h, Nat.div_eq_of_lt h]
  match off / 4 with
  | 0 | 1 | 2 | 3 | 4 | 5 | 6 | 7 | 8 | 9 | 10 | 11 | 12 | _ + 13 => rfl

/-- The offset the map gives a target; a reserved one has many (R26). -/
def Target.offset : Target → Nat
  | .cmd => 0x000
  | .status => 0x004
  | .diag => 0x008
  | .config => 0x00C
  | .pads => 0x010
  | .inLen => 0x014
  | .outLen => 0x018
  | .syndrome => 0x01C
  | .crcValue => 0x020
  | .csumValue => 0x024
  | .trace0Len => 0x028
  | .trace1Len => 0x02C
  | .trace2Len => 0x030
  | .reserved => 0x034
  | .inData k => 0x10000 + 4 * k
  | .outData k => 0x20000 + 4 * k
  | .trace0Data k => 0x30000 + 4 * k
  | .trace1Data k => 0x40000 + 4 * k
  | .trace2Data k => 0x50000 + 4 * k

/-- An aligned offset of the aperture is the offset of its target, unless that is reserved. -/
theorem offset_targetOf {off : Nat} (hoff : off < apertureBytes) (haligned : off % 4 = 0) (h : targetOf off ≠ .reserved) :
    (targetOf off).offset = off := by
  by_cases hreg : off < 0x10000
  · obtain ⟨w, rfl⟩ : ∃ w, off = 4 * w := ⟨off / 4, by omega⟩
    have hw : w < 13 := by
      by_contra hge
      exact h (targetOf_reserved (by omega) hreg)
    interval_cases w <;> rfl
  · obtain ⟨w, k, hk, rfl⟩ := exists_window (Nat.le_of_not_lt hreg) haligned
    have hw : w < 5 := by unfold apertureBytes at hoff; omega
    rw [targetOf_window hk]
    interval_cases w <;> simp only [Target.offset]

/-! ### Accesses -/

/-- An aligned 32-bit read in the aperture returns the word of its target (R49). -/
theorem hostAccess_read_ok {s : State} {off : Nat} (hwf : s.params.wf) (ho : off < apertureBytes) (ha : off % 4 = 0) :
    hostAccess s (.read (s.params.blockBase + off) 4)
      = .next (s.countDraw.respond (.data (s.readTarget (targetOf off)))) := by
  obtain ⟨hbase, -⟩ := hwf
  rw [hostAccess, busOffset_ok s.params off (by omega) ho ha]

/-- Settles O15: an access reaches its target, and the map is the table of R26. -/
theorem hostAccessesReachTheRegisterMap : Obligations.HostAccessesReachTheRegisterMap := by
  intro s off v hwf hoff haligned
  refine ⟨⟨_, hostAccess_read_ok hwf hoff haligned, rfl⟩, ⟨_, hostAccess_write_ok hwf hoff haligned v, rfl⟩,
    fun hreg => ?registers, ?inData, ?outData, ?trace0Data, ?trace1Data, ?trace2Data⟩
  case registers =>
    split
    · exact targetOf_register hreg
    · exact targetOf_reserved (by omega) hreg
  case inData =>
    rintro k rfl h
    exact targetOf_inData (by omega)
  case outData =>
    rintro k rfl h
    exact targetOf_window (w := 1) (by omega)
  case trace0Data =>
    rintro k rfl h
    exact targetOf_window (w := 2) (by omega)
  case trace1Data =>
    rintro k rfl h
    exact targetOf_window (w := 3) (by omega)
  case trace2Data =>
    rintro k rfl h
    exact targetOf_window (w := 4) (by omega)

/-- An access whose offset the bus refuses is a fault, whether it reads or writes (R50, R111). -/
theorem hostAccess_of_busOffset_error {s : State} {addr width : Nat} {f : Fault} (h : busOffset s.params addr width = .error f)
    (v : Word) : hostAccess s (.read addr width) = .fault f ∧ hostAccess s (.write addr width v) = .fault f := by
  simp only [hostAccess, h, and_self]

/-- Settles O16: the two refusals of the bus. -/
theorem refusedAccessesAreFaultsOfTheHostStep : Obligations.RefusedAccessesAreFaultsOfTheHostStep := fun _ _ _ v =>
  ⟨fun hlo hhi hbad => hostAccess_of_busOffset_error (busOffset_refused _ _ _ ⟨hlo, hhi⟩ hbad) v,
    fun houtside => hostAccess_of_busOffset_error (busOffset_outside _ _ _ houtside) v⟩

/-! ### Writes while BUSY, and writes that change nothing (R45) -/

/-- The targets whose writes take effect while IDLE alone. -/
def Target.isOperand : Target → Bool
  | .cmd | .config | .pads | .inLen | .inData _ => true
  | _ => false

theorem State.writeTarget_busy {s : State} {tgt : Target} (hbusy : s.phase = .busy) (h : tgt.isOperand = true) (v : Word) :
    s.writeTarget v tgt = s.setOverrun := by
  cases tgt <;> simp [Target.isOperand, State.writeTarget, State.whenIdle_busy hbusy] at h ⊢

theorem State.writeTarget_readOnly {tgt : Target} (h : tgt.isOperand = false) (hstatus : tgt ≠ .status) (s : State) (v : Word) :
    s.writeTarget v tgt = s := by
  cases tgt <;> simp [Target.isOperand, State.writeTarget] at h hstatus ⊢

/-- The offsets of R45's first case. -/
theorem isOperand_targetOf {off : Nat}
    (h : off ∈ [0x000, 0x00C, 0x010, 0x014] ∨ (0x10000 ≤ off ∧ off < 0x20000 ∧ off % 4 = 0)) :
    off < apertureBytes ∧ off % 4 = 0 ∧ (targetOf off).isOperand = true := by
  obtain hreg | ⟨hlo, hhi, haligned⟩ := h
  · fin_cases hreg <;> exact ⟨by decide, rfl, rfl⟩
  · obtain ⟨k, hk, rfl⟩ : ∃ k, k < 0x4000 ∧ off = 0x10000 + 4 * k := ⟨(off - 0x10000) / 4, by omega, by omega⟩
    rw [targetOf_inData hk]
    exact ⟨by unfold apertureBytes; omega, haligned, rfl⟩

/-- The offsets of R45's last case. -/
theorem readOnly_targetOf {off : Nat} (hoff : off < 0x60000) (haligned : off % 4 = 0)
    (h : off = 0x008 ∨ (0x018 ≤ off ∧ off < 0x10000) ∨ 0x20000 ≤ off) :
    (targetOf off).isOperand = false ∧ targetOf off ≠ .status := by
  obtain rfl | ⟨hlo, hhi⟩ | hhi := h
  · exact ⟨rfl, nofun⟩
  · by_cases hreserved : 0x034 ≤ off
    · rw [targetOf_reserved hreserved hhi]
      exact ⟨rfl, nofun⟩
    · obtain ⟨w, rfl⟩ : ∃ w, off = 4 * w := ⟨off / 4, by omega⟩
      have hw : 6 ≤ w ∧ w < 13 := by omega
      obtain ⟨hlow, hhigh⟩ := hw
      interval_cases w <;> exact ⟨rfl, nofun⟩
  · obtain ⟨w, k, hk, rfl⟩ := exists_window (by omega) haligned
    have hw : 1 ≤ w ∧ w < 5 := by omega
    obtain ⟨hlow, hhigh⟩ := hw
    rw [targetOf_window hk]
    interval_cases w <;> exact ⟨rfl, nofun⟩

/-- A write of an operand while BUSY is answered, ignored and flagged (R45). -/
theorem hostAccess_write_busy {s : State} {off : Nat} (hwf : s.params.wf) (hbusy : s.phase = .busy)
    (h : off ∈ [0x000, 0x00C, 0x010, 0x014] ∨ (0x10000 ≤ off ∧ off < 0x20000 ∧ off % 4 = 0)) (v : Word) :
    hostAccess s (.write (s.params.blockBase + off) 4 v) = .next (s.setOverrun.respond .ack) := by
  obtain ⟨hoff, haligned, hoperand⟩ := isOperand_targetOf h
  rw [hostAccess_write_ok hwf hoff haligned, State.writeTarget_busy hbusy hoperand]

theorem hostAccess_write_status {s : State} (hwf : s.params.wf) (v : Word) :
    hostAccess s (.write (s.params.blockBase + 0x004) 4 v) = .next ((s.writeStatus v).respond .ack) :=
  hostAccess_write_ok hwf (by decide) rfl v

/-- Settles O9. -/
theorem writesWhileBusyAreIgnoredAndFlagged : Obligations.WritesWhileBusyAreIgnoredAndFlagged := by
  intro s v off hwf
  refine ⟨fun hbusy h => ⟨_, hostAccess_write_busy hwf hbusy h v, rfl⟩, ?status, fun hoff haligned h => ?readOnly,
    fun hoff haligned => ⟨_, _, hostAccess_read_ok hwf hoff haligned, rfl, rfl⟩⟩
  case status =>
    rintro rfl
    exact ⟨_, hostAccess_write_status hwf v, rfl⟩
  case readOnly =>
    obtain ⟨hoperand, hstatus⟩ := readOnly_targetOf hoff haligned h
    refine ⟨_, hostAccess_write_ok hwf hoff haligned v, ?_⟩
    rw [State.writeTarget_readOnly hoperand hstatus]
    rfl

end Sys2Proof.Machine
end

section
/-! ## The words of the registers (R28 to R32, R107) -/
namespace Sys2Proof.Machine

/-! ### What a read finds at each place

A word made of fields has the width 32 by computation alone, so that the laws of `++` meet it as the appended fields: an observation
of a bit vector of any width sees the same in both. -/

theorem State.observe_statusWord {β : Type} (f : {n : Nat} → BitVec n → β) (s : State) :
    f s.statusWord = f (0#16 ++ BitVec.ofBool s.overrun ++ 0#1 ++ stageCode s.errStage ++ errCode s.err ++ 0#3 ++ s.corr.code
      ++ BitVec.ofBool s.valid ++ BitVec.ofBool s.done ++ BitVec.ofBool s.phase.isBusy) := rfl

theorem Diag.observe_word {β : Type} (f : {n : Nat} → BitVec n → β) (d : Diag) :
    f d.word = f (0#25 ++ BitVec.ofBool d.misalignedTail ++ BitVec.ofBool d.short ++ BitVec.ofBool d.uncorrectable
      ++ BitVec.ofBool d.bareFlag ++ BitVec.ofBool d.incompleteEsc ++ BitVec.ofBool d.missingDelim
      ++ BitVec.ofBool d.lenMismatch) := rfl

theorem ConfigReg.observe_word {β : Type} (f : {n : Nat} → BitVec n → β) (c : ConfigReg) :
    f c.word = f (0#23 ++ BitVec.ofBool c.traceEn ++ 0#1 ++ c.detection ++ c.correction ++ c.framing) := rfl

theorem PadsReg.observe_word {β : Type} (f : {n : Nat} → BitVec n → β) (p : PadsReg) :
    f p.word = f (p.crcPad ++ 0#8 ++ p.parityPad) := rfl

theorem State.statusWord_fields (s : State) :
    s.statusWord.getLsbD 0 = s.phase.isBusy ∧ s.statusWord.getLsbD 1 = s.done ∧ s.statusWord.getLsbD 2 = s.valid
      ∧ s.statusWord.extractLsb' 3 2 = s.corr.code ∧ s.statusWord.extractLsb' 5 3 = 0
      ∧ s.statusWord.extractLsb' 8 4 = errCode s.err ∧ s.statusWord.extractLsb' 12 2 = stageCode s.errStage
      ∧ s.statusWord.getLsbD 14 = false ∧ s.statusWord.getLsbD 15 = s.overrun ∧ s.statusWord.extractLsb' 16 16 = 0 := by
  have hbit (i : Nat) := s.observe_statusWord (·.getLsbD i)
  have hfield (a n : Nat) := s.observe_statusWord (·.extractLsb' a n)
  simp only [hbit, hfield, BitVec.getLsbD_append, BitVec.extractLsb'_append_eq_of_le, BitVec.extractLsb'_append_eq_right,
    Nat.reduceLeDiff, Nat.reduceSub]
  simp

theorem Diag.word_fields (d : Diag) :
    d.word.getLsbD 0 = d.lenMismatch ∧ d.word.getLsbD 1 = d.missingDelim ∧ d.word.getLsbD 2 = d.incompleteEsc
      ∧ d.word.getLsbD 3 = d.bareFlag ∧ d.word.getLsbD 4 = d.uncorrectable ∧ d.word.getLsbD 5 = d.short
      ∧ d.word.getLsbD 6 = d.misalignedTail ∧ d.word.extractLsb' 7 25 = 0 := by
  have hbit (i : Nat) := d.observe_word (·.getLsbD i)
  have hfield (a n : Nat) := d.observe_word (·.extractLsb' a n)
  simp only [hbit, hfield, BitVec.getLsbD_append, BitVec.extractLsb'_append_eq_of_le, Nat.reduceLeDiff, Nat.reduceSub]
  simp

theorem ConfigReg.word_fields (c : ConfigReg) :
    c.word.extractLsb' 0 2 = c.framing ∧ c.word.extractLsb' 2 2 = c.correction ∧ c.word.extractLsb' 4 3 = c.detection
      ∧ c.word.getLsbD 8 = c.traceEn := by
  have hbit (i : Nat) := c.observe_word (·.getLsbD i)
  have hfield (a n : Nat) := c.observe_word (·.extractLsb' a n)
  simp only [hbit, hfield, BitVec.getLsbD_append, BitVec.extractLsb'_append_eq_of_le, BitVec.extractLsb'_append_eq_right,
    Nat.reduceLeDiff, Nat.reduceSub]
  simp

theorem PadsReg.word_fields (p : PadsReg) :
    p.word.extractLsb' 0 8 = p.parityPad ∧ p.word.extractLsb' 16 16 = p.crcPad := by
  have hfield (a n : Nat) := p.observe_word (·.extractLsb' a n)
  simp only [hfield, BitVec.extractLsb'_append_eq_of_le, BitVec.extractLsb'_append_eq_right, Nat.reduceLeDiff, Nat.reduceSub]
  simp

theorem toNat_lengthWord (n : BitVec 20) : (lengthWord n).toNat = n.toNat := by
  rw [lengthWord, BitVec.toNat_setWidth, Nat.mod_eq_of_lt (n.isLt.trans (by decide))]

/-- Settles O11. -/
theorem statusWordHoldsItsFields : Obligations.StatusWordHoldsItsFields := by
  intro s
  obtain ⟨hbusy, hdone, hvalid, hcorr, h5, herr, hstage, h14, hoverrun, h16⟩ := s.statusWord_fields
  obtain ⟨hframing, hcorrection, hdetection, htrace⟩ := s.config.word_fields
  obtain ⟨hparity, hcrc⟩ := s.pads.word_fields
  refine ⟨⟨hbusy.trans ?phase, hdone, hvalid, hcorr.trans ?corr, h5, herr.trans ?err, hstage.trans ?stage, h14, hoverrun, h16⟩,
    s.diag.word_fields, ⟨hframing, hcorrection, hdetection, htrace, hparity, hcrc⟩,
    rfl, toNat_lengthWord _, toNat_lengthWord _, toNat_lengthWord _, rfl, ?csum, toNat_lengthWord _, toNat_lengthWord _,
    toNat_lengthWord _⟩
  case phase => cases s.phase <;> rfl
  case corr => cases s.corr <;> rfl
  case err => rcases s.err with _ | _ | _ <;> rfl
  case stage => rcases s.errStage with _ | _ | _ <;> rfl
  case csum =>
    rw [State.readTarget, BitVec.toNat_setWidth, Nat.mod_eq_of_lt (s.csumValue.isLt.trans (by decide))]

/-! ### What a write stores is what a read returns -/

theorem ConfigReg.word_ofWord (v : Word) : (ConfigReg.ofWord v).word = v &&& 0x0000017F := by
  refine BitVec.eq_of_getLsbD_eq fun i hi => ?_
  have hbit := (ConfigReg.ofWord v).observe_word (·.getLsbD i)
  rw [hbit, BitVec.getLsbD_and]
  simp only [BitVec.getLsbD_append]
  interval_cases i <;> simp [ConfigReg.ofWord]

theorem PadsReg.word_ofWord (v : Word) : (PadsReg.ofWord v).word = v &&& 0xFFFF00FF := by
  refine BitVec.eq_of_getLsbD_eq fun i hi => ?_
  have hbit := (PadsReg.ofWord v).observe_word (·.getLsbD i)
  rw [hbit, BitVec.getLsbD_and]
  simp only [BitVec.getLsbD_append]
  interval_cases i <;> simp [PadsReg.ofWord]

theorem lengthWord_lengthOfWord (v : Word) : lengthWord (lengthOfWord v) = v &&& 0x000FFFFF := by
  refine BitVec.eq_of_getLsbD_eq fun i hi => ?_
  rw [lengthWord, lengthOfWord, BitVec.getLsbD_setWidth, BitVec.getLsbD_and]
  interval_cases i <;> simp

/-- Settles O13. -/
theorem controlRegistersReadBackAsWritten : Obligations.ControlRegistersReadBackAsWritten := by
  intro s v hidle
  have hconfig : s.writeTarget v .config = s.writeConfig v := State.whenIdle_idle hidle (·.writeConfig v)
  have hpads : s.writeTarget v .pads = s.writePads v := State.whenIdle_idle hidle (·.writePads v)
  have hinLen : s.writeTarget v .inLen = s.writeInLen v := State.whenIdle_idle hidle (·.writeInLen v)
  rw [hconfig, hpads, hinLen]
  exact ⟨⟨ConfigReg.word_ofWord v, rfl⟩, ⟨PadsReg.word_ofWord v, rfl⟩, ⟨lengthWord_lengthOfWord v, rfl⟩⟩

end Sys2Proof.Machine
end

section
/-! ## The operands and the buffer windows (R40, R44, R52, R54, R55) -/
namespace Sys2Proof.Machine

/-! ### The operand strings -/

theorem BitMem.look_of_get_none {m : BitMem} {i : Nat} (h : m.get i = none) (draw : Nat) : m.look draw i = Config.anyBit draw i := by
  rw [BitMem.look, h, Option.getD_none]

theorem BitMem.read_getElem? (m : BitMem) {n i : Nat} (draw : Nat) (h : i < n) : (m.read n draw)[i]? = some (m.look draw i) := by
  rw [List.getElem?_eq_getElem (by rwa [BitMem.read_length]), BitMem.read_getElem]

/-- The string a command reads: each written bit as stored, each other bit the draw's free value. -/
theorem BitMem.read_bits (m : BitMem) (n draw : Nat) :
    (∀ i b, i < n → m.get i = some b → (m.read n draw)[i]? = some b) ∧
      (∀ i, i < n → m.get i = none → (m.read n draw)[i]? = some (Config.anyBit draw i)) :=
  ⟨fun i b hi h => by rw [BitMem.read_getElem? m draw hi, BitMem.look_of_get h],
    fun i hi h => by rw [BitMem.read_getElem? m draw hi, BitMem.look_of_get_none h]⟩

/-- Settles O19. -/
theorem inputOperandIsTheStoredString : Obligations.InputOperandIsTheStoredString := fun s =>
  ⟨⟨s.inString_length, fun _ => State.inString_of_holdsIn, BitMem.read_bits s.inBuf _ _⟩,
    ⟨s.outString_length, fun _ => State.outString_of_showsOut, BitMem.read_bits s.out _ _⟩⟩

/-! ### IN_DATA -/

theorem State.inWindow_bit (s : State) {k j : Nat} (hk : k < s.params.maxInBits / 32) (hj : j < 32) :
    (s.inWindow k).getLsbD (31 - j) = s.inBuf.look s.draws (32 * k + j) := by
  rw [State.inWindow, if_pos hk, windowWord_bit _ _ _ _ _ hj, if_pos rfl]

theorem State.inWindow_past (s : State) {k : Nat} (hk : s.params.maxInBits / 32 ≤ k) : s.inWindow k = 0 :=
  if_neg (Nat.not_lt.mpr hk)

/-- Two words are equal when they pack the same bits (R52). -/
theorem word_ext {v w : Word} (h : ∀ j < 32, v.getLsbD (31 - j) = w.getLsbD (31 - j)) : v = w :=
  BitVec.eq_of_getLsbD_eq fun i hi => by
    have := h (31 - i) (by omega)
    rwa [show 31 - (31 - i) = i by omega] at this

/-- A word of IN_DATA reads the same where its bits are the same. -/
theorem State.inWindow_congr {s t : State} {k : Nat} (hparams : t.params = s.params) (hdraws : t.draws = s.draws)
    (h : ∀ j < 32, t.inBuf.get (32 * k + j) = s.inBuf.get (32 * k + j)) : t.inWindow k = s.inWindow k := by
  by_cases hk : k < s.params.maxInBits / 32
  · refine word_ext fun j hj => ?_
    rw [s.inWindow_bit hk hj, t.inWindow_bit (hparams ▸ hk) hj, BitMem.look, BitMem.look, h j hj, hdraws]
  · rw [s.inWindow_past (Nat.le_of_not_lt hk), t.inWindow_past (hparams ▸ Nat.le_of_not_lt hk)]

section
variable {s : State} {k : Nat} (hk : k < s.params.maxInBits / 32) (v : Word)
include hk

theorem State.writeInWord_of_lt : s.writeInWord k v = { s with inBuf := s.inBuf.write (32 * k) (bitsOf v) } := if_pos hk

theorem State.writeInWord_get_inside {j : Nat} (hj : j < 32) :
    (s.writeInWord k v).inBuf.get (32 * k + j) = some (v.getLsbD (31 - j)) := by
  have hlen : j < (bitsOf v).length := by rwa [length_bitsOf]
  rw [State.writeInWord_of_lt hk, BitMem.get_write_inside _ _ _ _ hlen, List.getElem?_eq_getElem hlen, bitsOf_getElem,
    BitVec.getMsbD_eq_getLsbD, decide_eq_true hj, Bool.true_and]

theorem State.writeInWord_get_outside {i : Nat} (hi : i < 32 * k ∨ 32 * k + 32 ≤ i) :
    (s.writeInWord k v).inBuf.get i = s.inBuf.get i := by
  rw [State.writeInWord_of_lt hk]
  exact BitMem.get_write_outside _ _ _ _ (by rwa [length_bitsOf])

theorem State.writeInWord_inWindow : (s.writeInWord k v).inWindow k = v := by
  refine word_ext fun j hj => ?_
  rw [State.inWindow_bit _ (by rwa [State.writeInWord_params]) hj, BitMem.look_of_get (State.writeInWord_get_inside hk v hj)]

theorem State.writeInWord_inWindow_other {k' : Nat} (hne : k' ≠ k) : (s.writeInWord k v).inWindow k' = s.inWindow k' :=
  State.inWindow_congr (State.writeInWord_params s k v) (State.writeInWord_draws s k v) fun j hj =>
    State.writeInWord_get_outside hk v (by omega)

end

/-- Settles O17. -/
theorem inDataWordReadsBackAsWritten : Obligations.InDataWordReadsBackAsWritten := by
  intro s k v
  refine ⟨fun hidle hk => ?written, fun hk j hj => ⟨fun b hb => ?stored, fun hnone => ?free⟩,
    fun hk => ⟨s.inWindow_past hk, fun hidle => ?past⟩,
    fun hbusy => ?busy⟩
  case written =>
    have hwrite : s.writeTarget v (.inData k) = s.writeInWord k v := State.whenIdle_idle hidle (·.writeInWord k v)
    rw [hwrite]
    refine ⟨fun j => State.writeInWord_get_inside hk v, fun i => State.writeInWord_get_outside hk v, ?_,
      State.writeInWord_inWindow hk v, fun k' => State.writeInWord_inWindow_other hk v⟩
    rw [State.writeInWord_of_lt hk]
  case stored => rw [State.readTarget, s.inWindow_bit hk hj, BitMem.look_of_get hb]
  case free => rw [State.readTarget, s.inWindow_bit hk hj, BitMem.look_of_get_none hnone]
  case past =>
    rw [State.writeTarget, State.whenIdle_idle hidle, State.writeInWord, if_neg (Nat.not_lt.mpr hk)]
  case busy => rw [State.writeTarget_busy hbusy rfl, State.setOverrun_inBuf]

/-! ### OUT_DATA and the traces -/

/-- What a result window shows of a buffer that holds its string: the string's bits while IDLE, elsewhere free values, and 0 past
the capacity (R55). -/
theorem State.resultWindow_shows (s : State) {m : BitMem} {cap : Nat} {len : BitVec 20} (h : BufferInv m cap len) (k : Nat) :
    (s.params.maxOutBits / 32 ≤ k → s.resultWindow m len k = 0) ∧
      (k < s.params.maxOutBits / 32 → ∀ j, j < 32 →
        (s.phase = .idle → 32 * k + j < len.toNat → m.get (32 * k + j) = some ((s.resultWindow m len k).getLsbD (31 - j))) ∧
        ((s.phase = .busy ∨ len.toNat ≤ 32 * k + j) →
          (s.resultWindow m len k).getLsbD (31 - j) = Config.anyBit s.draws (32 * k + j))) := by
  refine ⟨fun hk => if_neg (Nat.not_lt.mpr hk), fun hk j hj => ?_⟩
  rw [State.resultWindow, if_pos hk, windowWord_bit _ _ _ _ _ hj]
  refine ⟨fun hidle hin => ?_, fun hhidden => ?_⟩
  · obtain ⟨b, hb⟩ := Option.isSome_iff_exists.mp (h.written _ hin)
    rw [if_pos (by simp [hidle, Phase.isBusy, hin]), BitMem.look_of_get hb, hb]
  · refine if_neg ?_
    obtain hbusy | hpast := hhidden
    · simp [hbusy, Phase.isBusy]
    · simp [Nat.not_lt.mpr hpast]

/-- Settles O18: the four windows are read alike, and the invariant says that each buffer holds its string. -/
theorem resultWindowsShowTheirStrings : Obligations.ResultWindowsShowTheirStrings := by
  intro s k v h w hw
  fin_cases hw
  · exact ⟨rfl, s.resultWindow_shows h.out k⟩
  · exact ⟨rfl, s.resultWindow_shows h.trace0 k⟩
  · exact ⟨rfl, s.resultWindow_shows h.trace1 k⟩
  · exact ⟨rfl, s.resultWindow_shows h.trace2 k⟩

end Sys2Proof.Machine
end

section
/-! ## The lifecycle of a command, and what each step leaves alone (R8, R27, R37, R42 to R45, R73, R112) -/
namespace Sys2Proof.Machine

/-! ### Illegal words (R73) -/

/-- A word with a reserved bit set, or whose opcode is no command's, is no command's encoding. -/
theorem exists_decode_error {w : Word}
    (h : w.extractLsb' 8 24 ≠ 0 ∨
      w.extractLsb' 0 8 ∉ ([0x01, 0x10, 0x11, 0x12, 0x13, 0x14, 0x15, 0x20, 0x21, 0x22, 0x23, 0x24, 0x25, 0x26, 0x30, 0x31,
        0x40, 0x41] : List Byte)) : ∃ r, decode w = .error r := by
  rcases hdecode : decode w with r | i
  · exact ⟨r, rfl⟩
  · rw [decode_eq_ok_iff] at hdecode
    subst hdecode
    exfalso
    revert h
    cases i <;> decide

/-- Settles O3: the completion writes the abort, whose string is empty. -/
theorem illegalWordsCompleteWithIllegalCmd : Obligations.IllegalWordsCompleteWithIllegalCmd := by
  intro s hbusy hdue hillegal
  obtain ⟨r, hdecode⟩ := exists_decode_error hillegal
  obtain ⟨hoperands, htraces, hrest⟩ := s.complete_frame (Res.abort .illegalCmd none {})
  obtain ⟨hreports, -⟩ := s.complete_publishes (Res.abort .illegalCmd none {}) (Nat.two_pow_pos 20) (Nat.two_pow_pos 20)
  exact ⟨s.completeIllegal, (step_complete hbusy hdue).trans (engineStep_illegal hdecode), hreports, rfl,
    fun i => s.complete_keeps_beyond _ i (Nat.zero_le i), hoperands, htraces, hrest⟩

/-! ### A held command (R42, R44, R127, R137) -/

/-- A state without what the outside world's steps change while BUSY: OVERRUN, the wait, the inputs, the answer and the draws. -/
def State.heldPart (s : State) : State := { s with overrun := false, waiting := 0, inputs := [], resp := .none, draws := 0 }

/-- While BUSY the host's inputs other than reset change nothing of the held part. -/
theorem State.Served.heldPart {s t : State} {i : Input} (hbusy : s.phase = .busy) (hi : i ≠ .reset) (ht : s.Served i t) :
    t.heldPart = s.heldPart ∧ t.waiting = s.waiting ∧ t.inputs = s.inputs := by
  cases ht with
  | failed | read => exact ⟨rfl, rfl, rfl⟩
  | write off v =>
    obtain heq | heq | ⟨-, heq⟩ | ⟨hidle, -⟩ := s.writeTarget_cases v (targetOf off)
    · rw [heq]
      exact ⟨rfl, rfl, rfl⟩
    · rw [heq]
      exact ⟨rfl, rfl, rfl⟩
    · rw [heq]
      exact ⟨rfl, rfl, rfl⟩
    · rw [hbusy] at hidle
      cases hidle
  | reset => exact absurd rfl hi

/-- A step before the completion is due takes one input and one host step off the wait. -/
theorem step_holds {s : State} {n : Nat} (hbusy : s.phase = .busy) (hwait : s.waiting = n + 1)
    (hreset : .reset ∉ s.inputs.take (n + 1)) :
    ∃ t, step s = .next t ∧ t.heldPart = s.heldPart ∧ t.waiting = n ∧ t.inputs = s.inputs.drop 1 := by
  rw [step_waiting hbusy hwait]
  rcases hinputs : s.inputs with _ | ⟨i, rest⟩
  · exact ⟨s.withWaiting n, hostStep_nil (s := s.withWaiting n) hinputs, rfl, rfl, hinputs⟩
  · have hi : i ≠ .reset := by
      rintro rfl
      simp [hinputs] at hreset
    rw [hostStep_cons (s := s.withWaiting n) hinputs]
    obtain ⟨t, ht, -⟩ := serve_cases ((s.withWaiting n).withInputs rest) i
    exact ⟨t, ht, State.Served.heldPart (s := (s.withWaiting n).withInputs rest) hbusy hi (serve_served ht)⟩

theorem run_succ_of_step {M : Host.Core} {s t : M.State} (h : M.step s = .next t) (k : Nat) : M.run (k + 1) s = M.run k t := by
  rw [Host.Core.run, h]

/-- The host steps of the latency, run one after the other, leave the held part alone. -/
theorem run_holds {n : Nat} {s : State} (hbusy : s.phase = .busy) (hwait : s.waiting = n) (hreset : .reset ∉ s.inputs.take n) :
    ∃ u, Host.Core.run Sys2Proof.core n s = .next u ∧ u.heldPart = s.heldPart ∧ u.waiting = 0 ∧ u.inputs = s.inputs.drop n := by
  induction n generalizing s with
  | zero => exact ⟨s, rfl, rfl, hwait, rfl⟩
  | succ n ih =>
    obtain ⟨t, ht, hheld, hwait', hinputs⟩ := step_holds hbusy hwait hreset
    have hbusy' : t.phase = .busy := (congrArg State.phase hheld).trans hbusy
    have hreset' : .reset ∉ t.inputs.take n := by
      have htake : t.inputs.take n = (s.inputs.take (n + 1)).drop 1 := by rw [hinputs, List.drop_take, Nat.add_sub_cancel]
      rw [htake]
      exact fun h => hreset (List.mem_of_mem_drop h)
    obtain ⟨u, hu, hheld', hdue, hinputs'⟩ := ih hbusy' hwait' hreset'
    refine ⟨u, (run_succ_of_step ht n).trans hu, hheld'.trans hheld, hdue, ?_⟩
    rw [hinputs', hinputs, List.drop_drop, Nat.add_comm]

/-- A completion ends the command (R42). -/
theorem State.Completed.idle_done {s t : State} (ht : s.Completed t) : t.phase = .idle ∧ t.done = true := by
  cases ht <;> exact ⟨rfl, rfl⟩

/-- Settles O7: the steps of the latency keep the held part, which holds the operands and the results, and then the command runs. -/
theorem heldCommandCompletesOnUnchangedOperands : Obligations.HeldCommandCompletesOnUnchangedOperands := by
  intro s i hbusy hdone hdecode hreset
  obtain ⟨u, hrun, hheld, hdue, hinputs⟩ := run_holds hbusy rfl hreset
  have hkept {α : Type} (field : State → α) : field u.heldPart = field s.heldPart := congrArg field hheld
  have hbusy' : u.phase = .busy := (hkept State.phase).trans hbusy
  have hdecode' : decode u.cmd = .ok i := (congrArg decode (hkept State.cmd)).trans hdecode
  obtain ⟨t, ht⟩ := exec_next i u
  obtain ⟨hidle, hdone'⟩ := (engineStep_completed ((engineStep_decoded hdecode').trans ht)).idle_done
  refine ⟨u, t, hrun, hbusy', (hkept State.done).trans hdone, hdue, ?operands, ?results, ?traces, hinputs,
    stepRunsTheDecodedCommand u i hbusy' hdue hdecode', ht, hidle, hdone'⟩
  case operands => exact ⟨hkept State.cmd, hkept State.config, hkept State.pads, hkept State.inLen, hkept State.inBuf⟩
  case results =>
    exact ⟨hkept State.valid, hkept State.corr, hkept State.err, hkept State.errStage, hkept State.diag, hkept State.syndrome,
      hkept State.crcValue, hkept State.csumValue, hkept State.out, hkept State.outLen⟩
  case traces =>
    exact ⟨hkept State.trace0, hkept State.trace1, hkept State.trace2, hkept State.trace0Len, hkept State.trace1Len,
      hkept State.trace2Len⟩

/-! ### OVERRUN (R112) -/

theorem State.Completed.overrun_eq {s t : State} (ht : s.Completed t) : t.overrun = s.overrun := by
  cases ht <;> rfl

/-- What a host write can do to the block, with the target it names: `State.writeTarget_cases` does not name it. -/
theorem State.writeTarget_cases_target (s : State) (v : Word) (tgt : Target) :
    s.writeTarget v tgt = s ∨ (tgt = .status ∧ s.writeTarget v tgt = s.writeStatus v) ∨
      (s.phase = .busy ∧ s.writeTarget v tgt = s.setOverrun) ∨
      (s.phase = .idle ∧ ((tgt = .cmd ∧ s.writeTarget v tgt = s.accept v) ∨
        (tgt = .config ∧ s.writeTarget v tgt = s.writeConfig v) ∨ (tgt = .pads ∧ s.writeTarget v tgt = s.writePads v) ∨
        (tgt = .inLen ∧ s.writeTarget v tgt = s.writeInLen v) ∨
        ∃ k, tgt = .inData k ∧ s.writeTarget v tgt = s.writeInWord k v)) := by
  rcases h : s.phase with _ | _ <;> cases tgt <;> simp [State.writeTarget, State.whenIdle, h]

/-- A write clears OVERRUN only by bit 15 of STATUS (R28). -/
theorem State.writeTarget_clears {s : State} {v : Word} {tgt : Target} (h : s.overrun = true)
    (hclear : (s.writeTarget v tgt).overrun = false) : tgt = .status ∧ v.getLsbD 15 = true := by
  obtain heq | ⟨htgt, heq⟩ | ⟨-, heq⟩ | ⟨-, ⟨-, heq⟩ | ⟨-, heq⟩ | ⟨-, heq⟩ | ⟨-, heq⟩ | ⟨k, -, heq⟩⟩ :=
    s.writeTarget_cases_target v tgt <;> simp [heq, h] at hclear
  exact ⟨htgt, hclear⟩

/-- An aligned address of the aperture is the one the map gives its target. -/
theorem eq_offset_of_targetOf {p : Params} {off : Nat} {tgt : Target} (hwf : p.wf) (hoff : off < apertureBytes)
    (haligned : (p.blockBase + off) % 4 = 0) (h : targetOf off = tgt) (htgt : tgt ≠ .reserved) : off = tgt.offset := by
  obtain ⟨hbase, -⟩ := hwf
  subst h
  exact (offset_targetOf hoff (by omega) htgt).symm

/-- A step that clears OVERRUN serves a reset or a STATUS write with bit 15 set. -/
theorem step_clears_overrun {s t : State} (hwf : s.params.wf) (hstep : step s = .next t) (h : s.overrun = true)
    (hclear : t.overrun = false) :
    s.inputs.head? = some .reset ∨
      ∃ v, s.inputs.head? = some (.write (s.params.blockBase + 0x004) 4 v) ∧ v.getLsbD 15 = true := by
  have hchanged : t.overrun ≠ s.overrun := by rw [h, hclear]; exact Bool.false_ne_true
  cases step_stepped hstep with
  | completed _ _ ht => exact absurd ht.overrun_eq hchanged
  | quiet => exact absurd rfl hchanged
  | served n _ i rest hinputs ht =>
    rw [hinputs, List.head?_cons]
    cases ht with
    | failed | read => simp at hchanged
    | write off v hoff haligned =>
      obtain ⟨htgt, hbit⟩ := State.writeTarget_clears (s := (s.withWaiting n).withInputs rest) h hclear
      obtain rfl := eq_offset_of_targetOf hwf hoff haligned htgt nofun
      exact .inr ⟨v, rfl, hbit⟩
    | reset => exact .inl rfl

/-- Settles O10. -/
theorem overrunIsClearedOnlyByStatusWriteOrReset : Obligations.OverrunIsClearedOnlyByStatusWriteOrReset := by
  intro s hwf
  refine ⟨fun off v hbusy h => ⟨_, hostAccess_write_busy hwf hbusy h v, rfl⟩, fun t => step_clears_overrun hwf,
    fun v hbit => ⟨_, hostAccess_write_status hwf v, ?_⟩, ⟨_, rfl, rfl⟩⟩
  simp [State.writeStatus, hbit]

/-! ### The traces (R37, R104, R136) -/

theorem State.writeTarget_keepsTraces (s : State) (v : Word) (tgt : Target) : s.keepsTraces (s.writeTarget v tgt) := by
  obtain heq | heq | ⟨-, heq⟩ | ⟨-, heq | heq | heq | heq | ⟨k, heq⟩⟩ := s.writeTarget_cases v tgt <;>
    simp [State.keepsTraces, heq]

/-- Settles O23. -/
theorem tracesChangeOnlyByPipelineCommandsOrReset : Obligations.TracesChangeOnlyByPipelineCommandsOrReset := by
  intro s t hstep
  cases step_stepped hstep with
  | completed hbusy hdue ht =>
    cases ht with
    | xferCopied | xferRefused | unit => exact .inl (by simp [State.keepsTraces])
    | pipe hcmd => exact .inr (.inr ⟨hbusy, hdue, hcmd⟩)
  | quiet => exact .inl (by simp [State.keepsTraces])
  | served n _ i rest hinputs ht =>
    cases ht with
    | failed | read => exact .inl (by simp [State.keepsTraces])
    | write off v =>
      exact .inl (by simpa [State.keepsTraces] using ((s.withWaiting n).withInputs rest).writeTarget_keepsTraces v (targetOf off))
    | reset => exact .inr (.inl (by rw [hinputs, List.head?_cons]))

/-! ### The operands (R27, R30, R31, R32, R54, R78) -/

theorem State.writeTarget_params (s : State) (v : Word) (tgt : Target) : (s.writeTarget v tgt).params = s.params := by
  obtain heq | heq | ⟨-, heq⟩ | ⟨-, heq | heq | heq | heq | ⟨k, heq⟩⟩ := s.writeTarget_cases v tgt <;> simp [heq]

/-- Settles O24: a completion writes none of the operands but XFER's, and a write only its own, while IDLE. -/
theorem operandsChangeOnlyByIdleHostWritesXferOrReset : Obligations.OperandsChangeOnlyByIdleHostWritesXferOrReset := by
  intro s t hwf hstep
  cases step_stepped hstep with
  | completed hbusy hdue ht =>
    cases ht with
    | xferCopied hcmd =>
      exact ⟨rfl, .inr (by simp [hbusy, hdue, hcmd])⟩
    | xferRefused | unit | pipe => exact ⟨rfl, .inr (by simp)⟩
  | quiet => exact ⟨rfl, .inr (by simp)⟩
  | served n _ i rest hinputs ht =>
    rw [hinputs, List.head?_cons]
    cases ht with
    | failed | read => exact ⟨by simp, .inr (by simp)⟩
    | write off v hoff haligned =>
      have hoffset {tgt : Target} := eq_offset_of_targetOf (tgt := tgt) hwf hoff haligned
      refine ⟨State.writeTarget_params _ v _, .inr ?_⟩
      obtain heq | ⟨-, heq⟩ | ⟨-, heq⟩ | ⟨hidle, ⟨htgt, heq⟩ | ⟨htgt, heq⟩ | ⟨htgt, heq⟩ | ⟨htgt, heq⟩ | ⟨k, htgt, heq⟩⟩ :=
        ((s.withWaiting n).withInputs rest).writeTarget_cases_target v (targetOf off)
      · simp [heq]
      · simp [heq]
      · simp [heq]
      all_goals
        have hidle : s.phase = .idle := hidle
        rw [heq, hoffset htgt nofun]
      · simp [hidle, Target.offset]
      · simp [hidle, Target.offset]
      · simp [hidle, Target.offset]
      · simp [hidle, Target.offset]
      · by_cases hk : k < s.params.maxInBits / 32 <;> simp [hidle, hk, Target.offset]
    | reset => exact ⟨rfl, .inl rfl⟩

end Sys2Proof.Machine
end

section
/-! ## The results of the pipeline commands (R98 to R104, R108, R109) -/
namespace Sys2Proof.Machine
open Sys2Proof.Pseudocode

/-! ### The two rules as runs of three stages -/

section
variable {s : State} {f : Framing} {k : Correction} {d : Detection}
  (hf : framingOf s.config.framing = some f) (hk : correctionOf s.config.correction = some k)
  (hd : detectionOf s.config.detection = some d)
include hf hk hd

theorem State.strategies_of_legal : s.config.strategies = .ok (f, k, d) := by
  simp only [ConfigReg.strategies, hf, hk, hd]

theorem pipeTx_of_legal (cap : Nat) (x : Bits) :
    pipeTx cap s.config x = runStages cap (.framing, f.encoder) (.correction, k.encoder) (.detection, d.encoder) publishTx x := by
  simp only [pipeTx, State.strategies_of_legal hf hk hd]

theorem pipeRx_of_legal (cap P Q : Nat) (y : Bits) :
    pipeRx cap s.config P Q y
      = runStages cap (.detection, d.decoder P Q) (.correction, k.decoder) (.framing, f.decoder) publishRx y := by
  simp only [pipeRx, State.strategies_of_legal hf hk hd]

end

/-- A pipeline command that ends in a record without an error publishes it, with the traces of its stages. -/
theorem State.completePipe_publishes {s : State} {rule : Bits → PipeOutcome} {r : Res} {stages : List Bits} (hwf : s.params.wf)
    (hin : s.inLen.toNat ≤ s.params.maxInBits) (hrule : rule s.inString = { res := r, stages := stages })
    (ho : PipeOutcome.WellFormed s.params.maxOutBits ⟨r, stages⟩) :
    (s.completePipe rule).publishes r ∧
      (s.completePipe rule).showsTraces s.config.traceEn stages[0]? stages[1]? stages[2]? := by
  have hcap := maxOutBits_lt hwf
  have hfits : r.out.length < 2 ^ 20 := Nat.lt_of_le_of_lt ho.res.fits hcap
  rw [State.completePipe_eq, if_neg (Nat.not_lt.mpr hin), hrule, guardOutput_of_fits ho.res.fits]
  exact ⟨s.complete_publishes r hfits ho.res.syndromeFits,
    State.writeTraces_showsTraces _ fun z hz => Nat.lt_of_le_of_lt (ho.stages z hz) hcap⟩

/-- An encoder raises no flag and has no verdict (R79 to R95). -/
theorem encoder_diag {f : Framing} {k : Correction} {d : Detection} {x y z : Bits} {r1 r2 r3 : Res}
    (h1 : f.encoder x = .ok r1) (h2 : k.encoder y = .ok r2) (h3 : d.encoder z = .ok r3) : r1.diag = {} ∧ r2.diag = {} ∧ r3.diag = {} := by
  refine ⟨?_, ?_, ?_⟩
  · cases f with
    | charCount =>
      by_cases hle : (padLeft8 x).length / 8 ≤ 255
      · cases (ccEnc_ok hle).symm.trans h1; rfl
      · cases (ccEnc_large (Nat.lt_of_not_le hle)).symm.trans h1
    | bitStuff | byteStuff => cases h1; rfl
  · cases k <;> cases h2 <;> rfl
  · cases d <;> cases h3 <;> rfl

/-- Settles O41: the stages run in order, and encoders raise no flag. -/
theorem pipeTxRunsFramingCorrectionDetection : Obligations.PipeTxRunsFramingCorrectionDetection := by
  intro s f k d r1 r2 r3 hwf hin hf hk hd h1 h2 h3
  have hrule := (pipeTx_of_legal hf hk hd s.params.maxOutBits s.inString).trans (runStages_of_ok h1 h2 h3)
  have ho := pipeTx_wellFormed s.config (maxOutBits_lt hwf) s.inString_length_lt
  rw [hrule] at ho
  have hpublish : publishTx r1 r2 r3 = { out := r3.out, crcValue := r3.crcValue, csumValue := r3.csumValue } := by
    obtain ⟨hd1, hd2, hd3⟩ := encoder_diag h1.1 h2.1 h3.1
    rw [publishTx, hd1, hd2, hd3]
    rfl
  rw [hpublish] at hrule ho
  exact ⟨_, rfl, State.completePipe_publishes hwf hin hrule ho⟩

/-- Settles O42: the stages run in order, whatever their verdicts; the receive engines of R98 are those of their unit commands, but
for `crc_rx` and NONE. -/
theorem pipeRxRunsDetectionCorrectionFraming : Obligations.PipeRxRunsDetectionCorrectionFraming := by
  refine ⟨?runs, fun P Q y => ⟨crcRem (val y) == 0, beq_iff_eq.trans (crcRem_eq_zero_iff (val y)), crcRx_eq Q y⟩,
    fun P Q y => ⟨rfl, rfl⟩, fun s => ⟨rfl, rfl, rfl, rfl, rfl, rfl⟩⟩
  intro s f k d r1 r2 r3 hwf hin hf hk hd h1 h2 h3
  have hrule := (pipeRx_of_legal hf hk hd s.params.maxOutBits s.parityPad s.crcPad s.inString).trans (runStages_of_ok h1 h2 h3)
  have ho := pipeRx_wellFormed s.config s.parityPad s.crcPad (maxOutBits_lt hwf) s.inString_length_lt
  rw [hrule] at ho
  exact ⟨_, rfl, State.completePipe_publishes hwf hin hrule ho⟩

/-! ### The failing stages (R108) -/

/-- Settles O44: the run is the abort of the failing stage. -/
theorem pipeTxAbortsAtTheFailingStage : Obligations.PipeTxAbortsAtTheFailingStage := by
  intro s f k d r1 r2 e hwf hin hf hk hd cap
  have hcap : cap < 2 ^ 20 := maxOutBits_lt hwf
  have hrule := pipeTx_of_legal hf hk hd cap s.inString
  refine ⟨fun h1 => ⟨_, rfl, ?first⟩, fun h1 h2 => ⟨_, rfl, ?second⟩, fun h1 h2 h3 => ⟨_, rfl, ?third⟩⟩
  case first => exact State.completePipe_aborts hin (hrule.trans (runStages_of_raises_first h1)) (List.forall_mem_nil _)
  case second =>
    refine State.completePipe_aborts hin (hrule.trans (runStages_of_raises_second h1 h2)) ?_
    simpa using h1.2.trans_lt hcap
  case third =>
    refine State.completePipe_aborts hin (hrule.trans (runStages_of_raises_third h1 h2 h3)) ?_
    simpa using And.intro (h1.2.trans_lt hcap) (h2.2.trans_lt hcap)

/-! ### The receive engines lengthen nothing (R102) -/

/-- A receive engine: its output is no longer than its input, and its own error is no CAPACITY. -/
structure Engine.Shortens (engine : Engine) : Prop where
  length_le : ∀ ⦃y r⦄, engine y = .ok r → r.out.length ≤ y.length
  error_ne : ∀ ⦃y e⦄, engine y = .error e → e ≠ .capacity

theorem ident_shortens : Engine.Shortens ident where
  length_le y r h := by cases h; rfl
  error_ne y e h := nomatch h

theorem identOk_shortens : Engine.Shortens identOk where
  length_le y r h := by cases h; rfl
  error_ne y e h := nomatch h

theorem hamDec_shortens : Engine.Shortens hamDec where
  length_le y r h := by
    obtain ⟨r', hr', hlen⟩ := hamDec_length_le y
    cases hr'.symm.trans h
    exact hlen
  error_ne y e h := by
    obtain ⟨r', hr', -⟩ := hamDec_length_le y
    cases hr'.symm.trans h

theorem parVer_shortens (P : Nat) : Engine.Shortens (parVer P) where
  length_le y r h := by
    by_cases hshort : y.length < P + 1
    · cases (parVer_short hshort).symm.trans h
      exact Nat.zero_le _
    · cases (parVer_ok (Nat.le_of_not_lt hshort)).symm.trans h
      simp only [List.length_take, List.length_drop]
      omega
  error_ne y e h := by
    by_cases hshort : y.length < P + 1
    · cases (parVer_short hshort).symm.trans h
    · cases (parVer_ok (Nat.le_of_not_lt hshort)).symm.trans h

theorem csVer_shortens : Engine.Shortens csVer where
  length_le y r h := by
    by_cases hbad : y.length % 8 ≠ 0 ∨ y.length < 16
    · cases (csVer_misaligned hbad).symm.trans h
    · cases (csVer_ok hbad).symm.trans h
      exact List.length_take_le' _ _
  error_ne y e h := by
    by_cases hbad : y.length % 8 ≠ 0 ∨ y.length < 16
    · cases (csVer_misaligned hbad).symm.trans h
      nofun
    · cases (csVer_ok hbad).symm.trans h

theorem crcRx_shortens (Q : Nat) : Engine.Shortens (crcRx Q) where
  length_le y r h := by
    cases (crcRx_eq Q y).symm.trans h
    split
    · exact Nat.zero_le _
    · exact List.length_take_le' _ _
  error_ne y e h := nomatch (crcRx_eq Q y).symm.trans h

theorem ccDec_shortens : Engine.Shortens ccDec where
  length_le f r h := by
    by_cases hshort : f.length < 8
    · cases (ccDec_short hshort).symm.trans h
    · cases (ccDec_ok (Nat.le_of_not_lt hshort)).symm.trans h
      simp only [List.length_take, List.length_drop]
      omega
  error_ne f e h := by
    by_cases hshort : f.length < 8
    · cases (ccDec_short hshort).symm.trans h
      nofun
    · cases (ccDec_ok (Nat.le_of_not_lt hshort)).symm.trans h

theorem length_byteScan_le (o : List Byte) : (byteScan o).1.length ≤ o.length := by
  induction o using byteScan.induct with
  | case1 | case2 => simp
  | case3 => simp [byteScan_flag []]
  | case4 v hesc hflag => rw [byteScan_plain hesc hflag]; simp
  | case5 w rest ih => rw [byteScan_escape]; simp only [List.length_cons]; omega
  | case6 w rest _ ih => rw [byteScan_flag]; simpa using ih
  | case7 v w rest hesc hflag ih => rw [byteScan_plain hesc hflag]; simpa using ih

theorem length_byteBody_le (o : List Byte) : (byteBody o).1.length ≤ o.length := by
  rw [byteBody_eq]
  dsimp only
  split
  · simp only [List.length_take, List.length_drop]
    omega
  · rfl

theorem byteDec_shortens : Engine.Shortens byteDec where
  length_le f r h := by
    cases h
    have hscan := (length_byteScan_le (byteBody (octets f)).1).trans (length_byteBody_le (octets f))
    rw [length_octets] at hscan
    simp only [length_fromOctets]
    omega
  error_ne f e h := nomatch h

theorem length_destuffBits_le (c : Nat) (y : Bits) : (destuffBits c y).length ≤ y.length := by
  induction y generalizing c with
  | nil => exact Nat.zero_le _
  | cons b y ih =>
    cases b with
    | true => simpa [destuffBits] using ih (c + 1)
    | false =>
      rw [destuffBits]
      split
      · exact (ih 0).trans (Nat.le_succ _)
      · simpa using ih 0

theorem bitDec_shortens : Engine.Shortens bitDec where
  length_le f r h := by
    cases h
    have hlead : (stripLeading f).1.length ≤ f.length := by
      rw [stripLeading_eq]
      dsimp only
      split
      · rw [List.length_drop]; omega
      · rfl
    have htrail (y : Bits) : (stripTrailing y).1.length ≤ y.length := by
      rw [stripTrailing_eq]
      dsimp only
      split
      · exact List.length_take_le' _ _
      · rfl
    exact (length_destuffBits_le 0 _).trans ((htrail _).trans hlead)
  error_ne f e h := nomatch h

theorem Framing.decoder_shortens (f : Framing) : f.decoder.Shortens := by
  cases f
  case charCount => exact ccDec_shortens
  case bitStuff => exact bitDec_shortens
  case byteStuff => exact byteDec_shortens

theorem Correction.decoder_shortens (k : Correction) : k.decoder.Shortens := by
  cases k
  case none => exact ident_shortens
  case hamming => exact hamDec_shortens

theorem Detection.decoder_shortens (P Q : Nat) (d : Detection) : (d.decoder P Q).Shortens := by
  cases d
  case none => exact identOk_shortens
  case parity => exact parVer_shortens P
  case checksum => exact csVer_shortens
  case crc32 => exact crcRx_shortens Q

theorem Correction.decoder_ok (k : Correction) (y : Bits) : ∃ r, k.decoder y = .ok r := by
  cases k with
  | none => exact ⟨_, rfl⟩
  | hamming => exact ⟨_, hamDec_eq y⟩

/-- A receive engine's input that fits a buffer gives an output that fits it. -/
theorem Engine.Shortens.stageOk {engine : Engine} (h : engine.Shortens) {cap : Nat} {y : Bits} {r : Res} (hfits : y.length ≤ cap)
    (hr : engine y = .ok r) : stageOk cap engine y r := ⟨hr, (h.length_le hr).trans hfits⟩

/-- A stage of a receive engine on a string that fits raises no CAPACITY. -/
theorem Engine.Shortens.stageRaises_ne {engine : Engine} (h : engine.Shortens) {cap : Nat} {y : Bits} {e : HardError}
    (hfits : y.length ≤ cap) (he : stageRaises cap engine y e) : e ≠ .capacity := by
  obtain he | ⟨r, hr, hlong, -⟩ := he
  · exact h.error_ne he
  · have := h.length_le hr
    omega

/-- Settles O45: the run is the abort of the failing stage; the correction stage's input is within the capacity, and so its output. -/
theorem pipeRxAbortsAtTheFailingStage : Obligations.PipeRxAbortsAtTheFailingStage := by
  intro s f k d r1 r2 e hwf hin hf hk hd cap D
  have hcap : cap < 2 ^ 20 := maxOutBits_lt hwf
  have hrule := pipeRx_of_legal hf hk hd cap s.parityPad s.crcPad s.inString
  refine ⟨fun h1 => ⟨_, rfl, ?first⟩, fun h1 => ?never, fun h1 h2 h3 => ⟨_, rfl, ?third⟩⟩
  case first => exact State.completePipe_aborts hin (hrule.trans (runStages_of_raises_first h1)) (List.forall_mem_nil _)
  case never =>
    obtain ⟨r, hr⟩ := k.decoder_ok r1.out
    exact ⟨r, k.decoder_shortens.stageOk h1.2 hr⟩
  case third =>
    refine State.completePipe_aborts hin (hrule.trans (runStages_of_raises_third h1 h2 h3)) ?_
    simpa using And.intro (h1.2.trans_lt hcap) (h2.2.trans_lt hcap)

/-- Three receive stages on a string that fits end in no CAPACITY. -/
theorem runStages_err_ne_capacity {cap : Nat} {u1 u2 u3 : StageUnit} {publish : Res → Res → Res → Res} {y : Bits}
    (hfits : y.length ≤ cap) (h1 : u1.2.Shortens) (h2 : u2.2.Shortens) (h3 : u3.2.Shortens)
    (hpublish : ∀ t1 t2 t3, (publish t1 t2 t3).err = none) : (runStages cap u1 u2 u3 publish y).res.err ≠ some .capacity := by
  obtain ⟨t1, ht1⟩ | ⟨e, he⟩ := stageOk_or_raises cap u1.2 y
  case inr =>
    rw [runStages_of_raises_first he]
    exact fun h => h1.stageRaises_ne hfits he (Option.some.inj h)
  obtain ⟨t2, ht2⟩ | ⟨e, he⟩ := stageOk_or_raises cap u2.2 t1.out
  case inr =>
    rw [runStages_of_raises_second ht1 he]
    exact fun h => h2.stageRaises_ne ht1.2 he (Option.some.inj h)
  obtain ⟨t3, ht3⟩ | ⟨e, he⟩ := stageOk_or_raises cap u3.2 t2.out
  case inr =>
    rw [runStages_of_raises_third ht1 ht2 he]
    exact fun h => h3.stageRaises_ne ht2.2 he (Option.some.inj h)
  rw [runStages_of_ok ht1 ht2 ht3, hpublish]
  nofun

theorem pipeRx_err_ne_capacity {cap : Nat} (cfg : ConfigReg) (P Q : Nat) {y : Bits} (hfits : y.length ≤ cap) :
    (pipeRx cap cfg P Q y).res.err ≠ some .capacity := by
  unfold pipeRx
  split
  case h_1 => nofun
  case h_2 f k d _ =>
    exact runStages_err_ne_capacity hfits (d.decoder_shortens P Q) k.decoder_shortens f.decoder_shortens fun _ _ _ => rfl

/-- The last stage that completes keeps to the capacity of OUT, and an abort's string is empty. -/
theorem length_pipeRx_le (cap : Nat) (cfg : ConfigReg) (P Q : Nat) (y : Bits) : (pipeRx cap cfg P Q y).res.out.length ≤ cap := by
  unfold pipeRx
  split
  case h_1 => exact Nat.zero_le cap
  case h_2 f k d _ =>
    obtain ⟨t1, t2, t3, -, -, ⟨-, hfits⟩, hrun⟩ | ⟨e, stage, diag, stages, -, hrun⟩ :=
      runStages_cases cap (.detection, d.decoder P Q) (.correction, k.decoder) (.framing, f.decoder) publishRx y <;> rw [hrun]
    · exact hfits
    · exact Nat.zero_le cap

/-- Settles O46: the input fits OUT as well, and no receive stage lengthens it. -/
theorem pipeRxNeverOverflowsALargeEnoughOut : Obligations.PipeRxNeverOverflowsALargeEnoughOut := by
  intro s hcap hin
  refine ⟨_, rfl, ?_⟩
  have hfits : s.inString.length ≤ s.params.maxOutBits := s.inString_length.trans_le (hin.trans hcap)
  rw [State.completePipe_eq, if_neg (Nat.not_lt.mpr hin), guardOutput_of_fits (length_pipeRx_le _ _ _ _ _)]
  exact pipeRx_err_ne_capacity s.config s.parityPad s.crcPad hfits

/-! ### The input capacity (R109) -/

/-- The CAPACITY abort of an input above MAX_IN_BITS, by the form of the command. -/
theorem State.complete_publishes_capacity (s : State) : (s.complete { err := some .capacity }).publishes { err := some .capacity } :=
  s.complete_publishes _ (Nat.two_pow_pos 20) (Nat.two_pow_pos 20)

theorem State.completePipe_of_input_capacity {s : State} (h : s.params.maxInBits < s.inLen.toNat) (rule : Bits → PipeOutcome) :
    s.completePipe rule = (s.complete { err := some .capacity }).writeTraces [] := by
  rw [State.completePipe_eq, if_pos h, Res.abort_eq]

/-- Settles O47: the check comes before the engine of a unit command and before the rule of a pipeline command. -/
theorem inputAboveCapacityIsRefused : Obligations.InputAboveCapacityIsRefused := by
  intro s i hxfer hlong
  by_cases hpipe : i ∈ [Instr.pipeTx, .pipeRx]
  · have hexec : exec i s = .next ((s.complete { err := some .capacity }).writeTraces []) := by
      fin_cases hpipe <;> exact congrArg _ (State.completePipe_of_input_capacity hlong _)
    have htraces := State.writeTraces_showsTraces (s.complete { err := some .capacity }) (List.forall_mem_nil _)
    exact ⟨_, hexec, s.complete_publishes_capacity, fun _ => htraces⟩
  · have hunit : i ∉ [Instr.xfer, .pipeTx, .pipeRx] := List.not_mem_cons_of_ne_of_not_mem hxfer hpipe
    obtain ⟨engine, hengine⟩ := unitEngine_of_unit s.parityPad s.crcPad hunit
    refine ⟨_, exec_of_unitEngine hengine, ?_, fun h => absurd (by simpa using h) hpipe⟩
    rw [State.completeUnit, unitResult_input_capacity s engine hlong]
    exact s.complete_publishes_capacity

end Sys2Proof.Machine
end

section
/-! ## The frames of the commands (R42, R78, R104) -/
namespace Sys2Proof.Machine

/-- A completion leaves OUT alone past the new OUT_LEN. -/
theorem State.complete_keepsBeyond (s : State) {r : Res} (h : r.out.length < 2 ^ 20) :
    keepsBeyond s.out (s.complete r).out (s.complete r).outLen := by
  intro i hi
  rw [State.complete_outLen, BitVec.toNat_ofNat, Nat.mod_eq_of_lt h] at hi
  exact s.complete_keeps_beyond r i hi

/-- A recorded trace is a write from the buffer's start; any other leaves the buffer as it is. -/
theorem traceAfter_keepsBeyond (m : BitMem) {recorded : Option Bits} (h : ∀ x ∈ recorded, x.length < 2 ^ 20) :
    keepsBeyond m (traceAfter m recorded).1 (traceAfter m recorded).2 := by
  intro i hi
  cases recorded with
  | none => rfl
  | some x =>
    have hlen : (BitVec.ofNat 20 x.length).toNat = x.length := Nat.mod_eq_of_lt (h x rfl)
    exact BitMem.get_write_outside m 0 x i (.inr (by rw [Nat.zero_add, ← hlen]; exact hi))

/-- DIAG after a unit command does not depend on the capacity of OUT (R29; log 18). -/
theorem unitResult_diag (s : State) (engine : Engine) (m : Nat) :
    (unitResult { s with params := { s.params with maxOutBits := m } } engine).diag = (unitResult s engine).diag := by
  have hin : State.inString { s with params := { s.params with maxOutBits := m } } = s.inString := rfl
  unfold unitResult
  rw [hin]
  by_cases hlong : s.params.maxInBits < s.inLen.toNat
  · rw [if_pos hlong, if_pos hlong]
  · rw [if_neg hlong, if_neg hlong]
    split
    · rfl
    · rw [guardOutput_diag, guardOutput_diag]

/-- Settles O48: a unit command is one completion, whose engine does not read the parameters. -/
theorem unitCommandFrame : Obligations.UnitCommandFrame := by
  intro s i hwf hunit
  obtain ⟨engine, hengine⟩ := unitEngine_of_unit s.parityPad s.crcPad hunit
  obtain ⟨hoperands, htraces, hrest⟩ := s.complete_frame (unitResult s engine)
  have hfits := (unitResult_wellFormed s (unitEngine_sound hengine)).fits.trans_lt (maxOutBits_lt hwf)
  refine ⟨_, exec_of_unitEngine hengine, hoperands, htraces, hrest, s.complete_keepsBeyond hfits, fun m => ?_⟩
  have hengine' : unitEngine (State.parityPad { s with params := { s.params with maxOutBits := m } })
      (State.crcPad { s with params := { s.params with maxOutBits := m } }) i = some engine := hengine
  exact ⟨_, exec_of_unitEngine hengine', unitResult_diag s engine m⟩

/-- Settles O49. -/
theorem xferAndPipelineFrame : Obligations.XferAndPipelineFrame := by
  intro s hwf
  refine ⟨?xfer, fun i hi => ?pipe⟩
  case xfer =>
    by_cases hfits : s.outLen.toNat ≤ s.params.maxInBits
    · exact ⟨_, exec_xfer_of_fits hfits, rfl, rfl, rfl, ⟨rfl, rfl, rfl, rfl, rfl, rfl⟩, ⟨rfl, rfl, rfl, rfl, rfl⟩, rfl, rfl,
        s.writeIn_keepsBeyond s.outString_length_lt⟩
    · exact ⟨_, exec_xfer_of_too_long (Nat.lt_of_not_le hfits), rfl, rfl, rfl, ⟨rfl, rfl, rfl, rfl, rfl, rfl⟩,
        ⟨rfl, rfl, rfl, rfl, rfl⟩, rfl, rfl, fun _ _ => rfl⟩
  case pipe =>
    obtain ⟨r, stages, hexec, ho⟩ := exec_pipe hi s
    obtain ⟨hres, hstages⟩ := ho hwf
    obtain ⟨hoperands, -, hrest⟩ := s.complete_frame r
    have hcap := maxOutBits_lt hwf
    have hrecorded (k : Nat) : ∀ x ∈ (if s.config.traceEn then stages else [])[k]?, x.length < 2 ^ 20 :=
      fun x hx => (hstages x (mem_of_recorded hx)).trans_lt hcap
    exact ⟨_, hexec, hoperands, hrest, s.complete_keepsBeyond (hres.fits.trans_lt hcap),
      traceAfter_keepsBeyond _ (hrecorded 0), traceAfter_keepsBeyond _ (hrecorded 1), traceAfter_keepsBeyond _ (hrecorded 2)⟩

end Sys2Proof.Machine
end

section
/-! ## The laws of the CRC and of the detection family (R18, R91, R93) -/
namespace Sys2Proof.Pseudocode

theorem carrylessMulBelow_two_mul (n a b : Nat) : carrylessMulBelow (n + 1) (2 * a) b = 2 * carrylessMulBelow n a b := by
  have hdouble (x y : Nat) : 2 * (x ^^^ y) = 2 * x ^^^ 2 * y := by
    have h := Nat.shiftLeft_xor_distrib (a := x) (b := y) (i := 1)
    simpa only [Nat.shiftLeft_eq, Nat.pow_one, Nat.mul_comm _ 2] using h
  induction n with
  | zero => simp [carrylessMulBelow_succ]
  | succ n ih =>
    have hbit : (2 * a).testBit (n + 1) = a.testBit n := by
      rw [Nat.testBit_succ, Nat.mul_div_cancel_left _ Nat.two_pos]
    rw [carrylessMulBelow_succ, ih, carrylessMulBelow_succ n, hdouble, hbit]
    cases a.testBit n
    · simp
    · simp only [if_true, Nat.shiftLeft_eq, Nat.pow_succ]
      congr 1
      ac_rfl

/-- Multiplying by x shifts the product (R18). -/
theorem carrylessMul_two_mul (a b : Nat) : carrylessMul (2 * a) b = 2 * carrylessMul a b := by
  have ha : a < 2 ^ a := a.lt_two_pow_self
  rw [← carrylessMulBelow_eq ha, ← carrylessMulBelow_two_mul, carrylessMulBelow_eq (by rw [Nat.pow_succ]; omega)]

end Sys2Proof.Pseudocode

namespace Sys2Proof.Machine
open Sys2Proof.Pseudocode

/-! ### Validity does not see a shift (R91) -/

/-- G has the constant term 1, so an even product with it is even times G: 2 is no divisor of G. -/
theorem exists_half_of_even_product {q v : Nat} (h : 2 * v = carrylessMul q G) : ∃ p, q = 2 * p := by
  by_contra hodd
  have hone : q % 2 = 1 := Nat.mod_two_ne_zero.mp fun h0 => hodd ⟨q / 2, by omega⟩
  have hq : q = 2 * (q / 2) ^^^ 2 ^ 0 := by
    rw [Nat.pow_zero, Nat.xor_one_of_even (even_two_mul _)]
    omega
  rw [hq, carrylessMul_xor, carrylessMul_two_mul, carrylessMul_two_pow] at h
  have hlow := congrArg (Nat.testBit · 0) h
  simp [G] at hlow

theorem crcRem_two_mul_eq_zero_iff (v : Nat) : crcRem (2 * v) = 0 ↔ crcRem v = 0 := by
  rw [crcRem_eq_zero_iff, crcRem_eq_zero_iff]
  constructor
  · rintro ⟨q, hq⟩
    obtain ⟨p, rfl⟩ := exists_half_of_even_product hq
    rw [carrylessMul_two_mul] at hq
    exact ⟨p, Nat.eq_of_mul_eq_mul_left Nat.two_pos hq⟩
  · rintro ⟨q, hq⟩
    exact ⟨2 * q, by rw [carrylessMul_two_mul, hq]⟩

theorem crcRem_mul_two_pow_eq_zero_iff (v k : Nat) : crcRem (v * 2 ^ k) = 0 ↔ crcRem v = 0 := by
  induction k with
  | zero => rw [Nat.pow_zero, Nat.mul_one]
  | succ k ih => rw [Nat.pow_succ', Nat.mul_left_comm, crcRem_two_mul_eq_zero_iff, ih]

/-- Settles O52. -/
theorem crcValidityIgnoresPadAndShift : Obligations.CrcValidityIgnoresPadAndShift := fun v =>
  crcRem_mul_two_pow_eq_zero_iff v 96

/-- The remainder is linear over GF(2) (R18). -/
theorem crcRem_xor (v w : Nat) : crcRem (v ^^^ w) = crcRem v ^^^ crcRem w := by
  obtain ⟨q, hq⟩ := exists_quotient_crcRem v
  obtain ⟨p, hp⟩ := exists_quotient_crcRem w
  refine (eq_crcRem (q := q ^^^ p) (Nat.xor_lt_two_pow (crcRem_lt v) (crcRem_lt w)) ?_).symm
  conv_lhs => rw [hq, hp]
  rw [carrylessMul_xor]
  ac_rfl

/-! ### Values of strings -/

theorem val_append_eq (x y : Bits) : val (x ++ y) = val x * 2 ^ y.length + val y := by
  induction y using List.reverseRecOn with
  | nil => simp
  | append_singleton y b ih =>
    rw [← List.append_assoc, val_append, ih, val_append, List.length_append, List.length_singleton, Nat.pow_succ]
    ring

/-- A flipped bit flips its bit of the value (R13). -/
theorem val_modify_not {y : Bits} {i : Nat} (h : i < y.length) : val (y.modify i (!·)) = val y ^^^ 2 ^ (y.length - 1 - i) := by
  have hlen : (y.modify i (!·)).length = y.length := List.length_modify ..
  refine Nat.eq_of_testBit_eq fun k => ?_
  rw [Nat.testBit_xor]
  by_cases hk : k < y.length
  · rw [val_testBit _ _ (by rwa [hlen]), val_testBit _ _ hk, List.getElem_modify, Nat.testBit_two_pow]
    simp only [hlen]
    by_cases hi : i = y.length - 1 - k
    · simp [hi, show y.length - 1 - (y.length - 1 - k) = k by omega]
    · simp [hi, show y.length - 1 - i ≠ k by omega]
  · have hpast {z : Bits} (hz : z.length = y.length) : (val z).testBit k = false :=
      Nat.testBit_lt_two_pow ((val_lt z).trans_le (Nat.pow_le_pow_right Nat.two_pos (by omega)))
    rw [hpast hlen, hpast rfl, Nat.testBit_two_pow_of_ne (by omega), Bool.xor_false]

/-! ### Parity -/

theorem xorAll_parity (x : Bits) : xorAll (x ++ [xorAll x]) = false := by simp [xorAll_append]

theorem parVer_parEnc (x : Bits) : ∃ r, parEnc x = .ok r ∧ parVer 0 r.out = .ok { out := x, valid := true } := by
  refine ⟨_, rfl, ?_⟩
  rw [parVer_ok (by simp), ← xorAll_beq_false, xorAll_parity]
  simp

theorem xorAll_modify_not {y : Bits} {i : Nat} (h : i < y.length) : xorAll (y.modify i (!·)) = !xorAll y := by
  induction y generalizing i with
  | nil => cases h
  | cons b y ih =>
    cases i with
    | zero => simp
    | succ i => simp [ih (by simpa using h)]

/-- The parity check reports its verdict on every string, too short to strip or not (R87). -/
theorem parVer_valid (P : Nat) (y : Bits) : ∃ q, parVer P y = .ok q ∧ q.valid = (xorAll y == false) := by
  by_cases hshort : y.length < P + 1
  · exact ⟨_, parVer_short hshort, (xorAll_beq_false y).symm⟩
  · exact ⟨_, parVer_ok (Nat.le_of_not_lt hshort), (xorAll_beq_false y).symm⟩

/-! ### The checksum -/

theorem octets_fromOctets_append (o : List Byte) (y : Bits) : octets (fromOctets o ++ y) = o ++ octets y := by
  induction o with
  | nil => rfl
  | cons v o ih =>
    rw [fromOctets_cons, List.append_assoc, octets_of_eight _ _ (length_bitsOf v), ih, val_bitsOf]
    simp

theorem octets_append {x : Bits} (h : x.length % 8 = 0) (y : Bits) : octets (x ++ y) = octets x ++ octets y := by
  conv_lhs => rw [← fromOctets_octets x h, octets_fromOctets_append]

theorem octets_bitsOf (v : Byte) : octets (bitsOf v) = [v] := by
  simpa using octets_fromOctets [v]

/-- The trailer completes the folded sum to 0xFF, in the closed form of the fold (R88). -/
theorem foldedSum_trailer (o : List Byte) : foldedSum (o ++ [BitVec.ofNat 8 (0xFF - foldedSum o)]) = 0xFF := by
  have hle := foldedSum_le o
  have htrailer : (BitVec.ofNat 8 (0xFF - foldedSum o)).toNat = 0xFF - foldedSum o := Nat.mod_eq_of_lt (by omega)
  rw [foldedSum_eq, List.map_append, List.sum_append, List.map_singleton, List.sum_singleton, htrailer, foldedSum_eq o]
  split_ifs <;> omega

/-- The encoded block of `cs_enc` (R88). -/
def checksumBlock (x : Bits) : Bits := padRight8 x ++ bitsOf (BitVec.ofNat 8 (0xFF - foldedSum (octets (padRight8 x))))

theorem length_padRight8_mod (x : Bits) : (padRight8 x).length % 8 = 0 := by
  rw [length_padRight8, Nat.add_comm, padLength_add_mod]

theorem foldedSum_checksumBlock (x : Bits) : foldedSum (octets (checksumBlock x)) = 0xFF := by
  rw [checksumBlock, octets_append (length_padRight8_mod x), octets_bitsOf, foldedSum_trailer]

/-- The block of at least one bit is whole octets, two at least. -/
theorem length_checksumBlock {x : Bits} (h : 1 ≤ x.length) : ¬ ((checksumBlock x).length % 8 ≠ 0 ∨ (checksumBlock x).length < 16) := by
  have haligned := length_padRight8_mod x
  have hlen : x.length ≤ (padRight8 x).length := by rw [length_padRight8]; omega
  rw [checksumBlock, List.length_append, length_bitsOf]
  omega

theorem csVer_csEnc {x : Bits} (h : 1 ≤ x.length) :
    ∃ r, csEnc x = .ok r ∧ csVer r.out = .ok { out := padRight8 x, valid := true, csumValue := 0xFF } := by
  refine ⟨_, csEnc_eq x, ?_⟩
  change csVer (checksumBlock x) = _
  rw [csVer_ok (length_checksumBlock h), foldedSum_checksumBlock]
  simp [checksumBlock]

/-- The sum of the octets is the string's value mod 255, as 256 is 1 mod 255. -/
theorem sum_octets_modEq {y : Bits} (h : y.length % 8 = 0) : ((octets y).map BitVec.toNat).sum ≡ val y [MOD 255] := by
  rw [← fromOctets_octets y h, octets_fromOctets]
  generalize octets y = o
  induction o with
  | nil => rfl
  | cons v o ih =>
    have hpow : 2 ^ (8 * o.length) ≡ 1 [MOD 255] := by
      rw [Nat.pow_mul]
      simpa using (show 2 ^ 8 ≡ 1 [MOD 255] from rfl).pow o.length
    rw [List.map_cons, List.sum_cons, fromOctets_cons, val_append_eq, val_bitsOf, length_fromOctets]
    simpa using (hpow.mul_left v.toNat).symm.add ih

/-- A string that passes the check has a value that 255 divides. -/
theorem val_modEq_zero_of_foldedSum {y : Bits} (h : y.length % 8 = 0) (hsum : foldedSum (octets y) = 0xFF) : val y ≡ 0 [MOD 255] := by
  refine (sum_octets_modEq h).symm.trans ?_
  rw [foldedSum_eq] at hsum
  rw [Nat.ModEq]
  split_ifs at hsum
  omega

theorem not_two_pow_modEq_zero (k : Nat) : ¬ 2 ^ k ≡ 0 [MOD 255] := by
  intro h
  have h3 : 3 ∣ 2 ^ k := (by decide : 3 ∣ 255).trans (Nat.modEq_zero_iff_dvd.mp h)
  exact absurd (Nat.prime_three.dvd_of_dvd_pow h3) (by decide)

/-- A flipped bit adds or takes away its power of two. -/
theorem val_modify_not_add {y : Bits} {i : Nat} (h : i < y.length) :
    ∃ k, val (y.modify i (!·)) = val y + 2 ^ k ∨ val y = val (y.modify i (!·)) + 2 ^ k := by
  have hval (b : Bool) : val (y.take i ++ b :: y.drop (i + 1))
      = val (y.take i) * 2 ^ ((y.drop (i + 1)).length + 1) + (b.toNat * 2 ^ (y.drop (i + 1)).length + val (y.drop (i + 1))) := by
    rw [val_append_eq, List.length_cons, ← List.singleton_append, val_append_eq]
    cases b <;> rfl
  have hy := hval y[i]
  rw [List.getElem_cons_drop, List.take_append_drop] at hy
  refine ⟨(y.drop (i + 1)).length, ?_⟩
  rw [List.modify_eq_take_cons_drop h, hval, hy]
  cases y[i]
  · left
    simp only [Bool.not_false, Bool.toNat_true, Bool.toNat_false]
    omega
  · right
    simp only [Bool.not_true, Bool.toNat_true, Bool.toNat_false]
    omega

/-- 255 divides no power of two, so it divides at most one of two values that differ in one bit. -/
theorem not_modEq_of_val_modify_not {y : Bits} {i : Nat} (h : i < y.length) (hy : val y ≡ 0 [MOD 255]) :
    ¬ val (y.modify i (!·)) ≡ 0 [MOD 255] := by
  intro hflip
  obtain ⟨k, hk | hk⟩ := val_modify_not_add h
  · rw [hk] at hflip
    exact not_two_pow_modEq_zero k (hy.add_left_cancel (by simpa using hflip))
  · rw [hk] at hy
    exact not_two_pow_modEq_zero k (hflip.add_left_cancel (by simpa using hy))

/-! ### The CRC -/

theorem mul_two_pow_add_eq_xor (a : Nat) {b k : Nat} (h : b < 2 ^ k) : a * 2 ^ k + b = a * 2 ^ k ^^^ b := by
  rw [Nat.mul_comm]
  refine Nat.eq_of_testBit_eq fun j => ?_
  rw [Nat.testBit_two_pow_mul_add a h, Nat.testBit_xor, Nat.testBit_two_pow_mul]
  by_cases hj : j < k
  · simp [hj, Nat.not_le.mpr hj]
  · have hb : b.testBit j = false :=
      Nat.testBit_lt_two_pow (h.trans_le (Nat.pow_le_pow_right Nat.two_pos (Nat.le_of_not_lt hj)))
    simp [hj, Nat.le_of_not_lt hj, hb]

/-- The encoded block of `crc_enc` (R90). -/
def crcBlock (x : Bits) : Bits := x ++ zeros 64 ++ bitsOf (BitVec.ofNat 32 (crcRem (val (x ++ zeros 64) * 2 ^ 32)))

theorem length_crcBlock (x : Bits) : (crcBlock x).length = x.length + 96 := by
  simp [crcBlock]

/-- The trailer is the remainder, so the block is a multiple of G. -/
theorem crcRem_crcBlock (x : Bits) : crcRem (val (crcBlock x)) = 0 := by
  have hlt := crcRem_lt (val (x ++ zeros 64) * 2 ^ 32)
  obtain ⟨q, hq⟩ := exists_quotient_crcRem (val (x ++ zeros 64) * 2 ^ 32)
  rw [crcBlock, val_append_eq, val_bitsOf, length_bitsOf, BitVec.toNat_ofNat, Nat.mod_eq_of_lt hlt,
    mul_two_pow_add_eq_xor _ hlt, crcRem_eq_zero_iff]
  refine ⟨q, ?_⟩
  conv_lhs => lhs; rw [hq]
  rw [Nat.xor_assoc, Nat.xor_self, Nat.xor_zero]

theorem crcVer_crcEnc (x : Bits) :
    ∃ r, crcEnc x = .ok r ∧ crcVer r.out = .ok { out := r.out, valid := true } ∧ crcStrip 64 r.out = .ok { out := x } := by
  refine ⟨_, rfl, ?_⟩
  change crcVer (crcBlock x) = .ok { out := crcBlock x, valid := true } ∧ crcStrip 64 (crcBlock x) = .ok { out := x }
  rw [crcVer, crcRem_crcBlock, crcStrip_ok (by rw [length_crcBlock]; omega), length_crcBlock]
  refine ⟨rfl, ?_⟩
  rw [crcBlock, List.append_assoc, List.take_left' (by omega)]

/-- Settles O55. -/
theorem detectionRoundTrips : Obligations.DetectionRoundTrips := fun x => ⟨parVer_parEnc x, csVer_csEnc, crcVer_crcEnc x⟩

/-- A single bit is no multiple of G (R91): shifting it down to 1, which is its own remainder, changes no validity. -/
theorem crcRem_two_pow_ne_zero (k : Nat) : crcRem (2 ^ k) ≠ 0 := by
  have hone : crcRem 1 = 1 := by decide
  rw [← Nat.one_mul (2 ^ k), ne_eq, crcRem_mul_two_pow_eq_zero_iff, hone]
  exact Nat.one_ne_zero

/-- Settles O56: a flipped bit turns the parity over, moves the value off the multiples of 255, and adds a single bit to a multiple
of G. -/
theorem singleBitFlipsAreDetected : Obligations.SingleBitFlipsAreDetected := by
  intro x i
  refine ⟨fun r P henc hi => ?parity, fun r hlen henc hi => ?checksum, fun r henc hi => ⟨_, rfl, ?crc⟩⟩
  case parity =>
    cases henc
    obtain ⟨q, hq, hvalid⟩ := parVer_valid P ((x ++ [xorAll x]).modify i (!·))
    exact ⟨q, hq, by rw [hvalid, xorAll_modify_not hi, xorAll_parity]; rfl⟩
  case checksum =>
    cases (csEnc_eq x).symm.trans henc
    have hi : i < (checksumBlock x).length := hi
    have hshape := length_checksumBlock hlen
    have hshape' : ¬ (((checksumBlock x).modify i (!·)).length % 8 ≠ 0 ∨ ((checksumBlock x).modify i (!·)).length < 16) := by
      rwa [List.length_modify]
    refine ⟨_, csVer_ok hshape', decide_eq_false fun hsum => ?_⟩
    exact not_modEq_of_val_modify_not hi (val_modEq_zero_of_foldedSum (by omega) (foldedSum_checksumBlock x))
      (val_modEq_zero_of_foldedSum (by omega) hsum)
  case crc =>
    cases henc
    have hi : i < (crcBlock x).length := hi
    change (crcRem (val ((crcBlock x).modify i (!·))) == 0) = false
    rw [val_modify_not hi, crcRem_xor, crcRem_crcBlock, Nat.zero_xor]
    exact beq_false_of_ne (crcRem_two_pow_ne_zero _)

end Sys2Proof.Machine
end

section
/-! ## Command sequences (R105, R121) -/
namespace Sys2Proof.Machine
open Sys2Proof.Pseudocode

/-! ### Commands that end without an error -/

/-- XFER without an error hands OUT over to IN, under the same parameters and registers (R78). -/
theorem exec_xfer_ok {s t : State} (h : exec .xfer s = .next t) (herr : t.err = none) :
    t.params = s.params ∧ t.config = s.config ∧ t.pads = s.pads ∧ t.inString = s.outString ∧ t.inLen.toNat ≤ t.params.maxInBits := by
  by_cases hfits : s.outLen.toNat ≤ s.params.maxInBits
  · rw [exec_xfer_of_fits hfits] at h
    cases h
    have hholds : State.holdsIn ((s.writeIn s.outString).writeResult {}) s.outString := s.writeIn_holdsIn s.outString_length_lt
    refine ⟨rfl, rfl, rfl, State.inString_of_holdsIn hholds, ?_⟩
    rw [hholds.1, State.outString_length]
    exact hfits
  · rw [exec_xfer_of_too_long (Nat.lt_of_not_le hfits)] at h
    cases h
    cases herr

/-- A unit command without an error shows what its engine answers, which fits OUT (R75). -/
theorem exec_unit_ok {s t : State} {i : Instr} {engine : Engine} (hwf : s.params.wf)
    (hengine : unitEngine s.parityPad s.crcPad i = some engine) (h : exec i s = .next t) (herr : t.err = none) :
    s.inLen.toNat ≤ s.params.maxInBits ∧ ∃ r, stageOk s.params.maxOutBits engine s.inString r ∧ t.params = s.params
      ∧ t.showsOut r.out ∧ t.crcValue = r.crcValue ∧ t.csumValue = r.csumValue := by
  rw [exec_of_unitEngine hengine] at h
  cases h
  rw [State.completeUnit] at herr ⊢
  by_cases hin : s.inLen.toNat ≤ s.params.maxInBits
  case neg =>
    rw [unitResult_input_capacity s engine (Nat.lt_of_not_le hin)] at herr
    cases herr
  rcases hanswer : engine s.inString with e | r
  · rw [unitResult_error s engine hin hanswer] at herr
    cases herr
  have hsound : r.Sound := unitEngine_sound hengine s.inString_length_lt hanswer
  rw [unitResult_ok s engine hin hanswer hsound.noError] at herr ⊢
  by_cases hfits : r.out.length ≤ s.params.maxOutBits
  · rw [withinCapacityWith, if_pos hfits]
    have hpub := s.complete_publishes r (hfits.trans_lt (maxOutBits_lt hwf)) hsound.syndromeFits
    exact ⟨hin, r, ⟨hanswer, hfits⟩, rfl, hpub.2, rfl, rfl⟩
  · rw [withinCapacityWith, if_neg hfits] at herr
    cases herr

/-- PIPE_TX without an error: every stage completed, and OUT shows the last one's string (R101). -/
theorem exec_pipeTx_ok {s t : State} {f : Framing} {k : Correction} {d : Detection} (hwf : s.params.wf)
    (hf : framingOf s.config.framing = some f) (hk : correctionOf s.config.correction = some k)
    (hd : detectionOf s.config.detection = some d) (h : exec .pipeTx s = .next t) (herr : t.err = none) :
    ∃ r1 r2 r3, stageOk s.params.maxOutBits f.encoder s.inString r1 ∧ stageOk s.params.maxOutBits k.encoder r1.out r2 ∧
      stageOk s.params.maxOutBits d.encoder r2.out r3 ∧ t.params = s.params ∧ t.config = s.config ∧ t.pads = s.pads
      ∧ t.outString = r3.out := by
  have hframe : t.params = s.params ∧ t.config = s.config ∧ t.pads = s.pads := by
    obtain ⟨r, stages, hexec, -⟩ := exec_pipe (List.mem_cons_self : Instr.pipeTx ∈ [Instr.pipeTx, .pipeRx]) s
    cases hexec.symm.trans h
    exact ⟨rfl, rfl, rfl⟩
  obtain ⟨hparams, hconfig, hpads⟩ := hframe
  have hrule := pipeTx_of_legal hf hk hd s.params.maxOutBits s.inString
  cases h
  by_cases hin : s.inLen.toNat ≤ s.params.maxInBits
  case neg =>
    rw [State.completePipe_of_input_capacity (Nat.lt_of_not_le hin)] at herr
    cases herr
  obtain ⟨r1, r2, r3, h1, h2, h3, hrun⟩ | ⟨e, stage, diag, stages, hlen, hrun⟩ :=
    runStages_cases s.params.maxOutBits (.framing, f.encoder) (.correction, k.encoder) (.detection, d.encoder) publishTx s.inString
  · have ho := pipeTx_wellFormed s.config (maxOutBits_lt hwf) s.inString_length_lt
    rw [hrule, hrun] at ho
    obtain ⟨⟨-, hout⟩, -⟩ := State.completePipe_publishes hwf hin (hrule.trans hrun) ho
    exact ⟨r1, r2, r3, h1, h2, h3, hparams, hconfig, hpads, State.outString_of_showsOut hout⟩
  · obtain ⟨⟨⟨-, -, -, -, herr', -⟩, -⟩, -⟩ :=
      State.completePipe_aborts hin (hrule.trans hrun) fun x hx => (hlen x hx).trans_lt (maxOutBits_lt hwf)
    cases herr'.symm.trans herr

/-- What PIPE_TX, XFER and PIPE_RX do, when the first two end without an error and the receive engines undo the transmit engines to
these records: PIPE_RX publishes them (R105). -/
theorem exec_pipeTx_xfer_pipeRx {s t1 t2 t3 : State} {f : Framing} {k : Correction} {d : Detection} (hwf : s.params.wf)
    (hf : framingOf s.config.framing = some f) (hk : correctionOf s.config.correction = some k)
    (hd : detectionOf s.config.detection = some d)
    (htx : exec .pipeTx s = .next t1) (herr1 : t1.err = none) (hxfer : exec .xfer t1 = .next t2) (herr2 : t2.err = none)
    (hrx : exec .pipeRx t2 = .next t3) {q1 q2 q3 : Res}
    (hundo : ∀ r1 r2 r3, f.encoder s.inString = .ok r1 → k.encoder r1.out = .ok r2 → d.encoder r2.out = .ok r3 →
      d.decoder s.parityPad s.crcPad r3.out = .ok q1 ∧ k.decoder q1.out = .ok q2 ∧ f.decoder q2.out = .ok q3) :
    t3.publishes (publishRx q1 q2 q3) := by
  obtain ⟨r1, r2, r3, h1, h2, h3, hparams1, hconfig1, hpads1, hout⟩ := exec_pipeTx_ok hwf hf hk hd htx herr1
  obtain ⟨hparams2, hconfig2, hpads2, hin, hfits⟩ := exec_xfer_ok hxfer herr2
  obtain ⟨hq1, hq2, hq3⟩ := hundo r1 r2 r3 h1.1 h2.1 h3.1
  have hparams : t2.params = s.params := hparams2.trans hparams1
  have hconfig : t2.config = s.config := hconfig2.trans hconfig1
  have hpads : t2.pads = s.pads := hpads2.trans hpads1
  have hlen : r3.out.length ≤ t2.params.maxOutBits := hparams ▸ h3.2
  rw [← hconfig] at hf hk hd
  rw [← hparams] at hwf
  have hinput : t2.inString = r3.out := hin.trans hout
  have hdec1 : d.decoder t2.pads.parityPad.toNat t2.pads.crcPad.toNat r3.out = .ok q1 := by rw [hpads]; exact hq1
  rw [← hinput] at hlen hdec1
  have ho1 := (d.decoder_shortens _ _).stageOk hlen hdec1
  have ho2 := k.decoder_shortens.stageOk ho1.2 hq2
  have ho3 := f.decoder_shortens.stageOk ho2.2 hq3
  obtain ⟨t, ht, hpub, -⟩ := pipeRxRunsDetectionCorrectionFraming.1 t2 f k d q1 q2 q3 hwf hfits hf hk hd ho1 ho2 ho3
  cases ht.symm.trans hrx
  exact hpub

/-! ### The clean round trip (R105) -/

/-- NONE, PARITY without a pad and CRC32 with the encoder's pad are undone exactly. -/
theorem Detection.decoder_encoder {d : Detection} {P Q : Nat} {x : Bits} {r : Res} (hd : d ≠ .checksum)
    (hP : d = .parity → P = 0) (hQ : d = .crc32 → Q = 64) (h : d.encoder x = .ok r) :
    d.decoder P Q r.out = .ok { out := x, valid := true } := by
  cases d with
  | none => cases h; rfl
  | parity =>
    obtain ⟨r', henc, hdec⟩ := parVer_parEnc x
    cases henc.symm.trans h
    rw [hP rfl]
    exact hdec
  | checksum => exact absurd rfl hd
  | crc32 =>
    cases h
    change crcRx Q (crcBlock x) = _
    rw [hQ rfl, crcRx_eq, crcRem_crcBlock, if_neg (by rw [length_crcBlock, CRC_LEN]; omega), length_crcBlock, crcBlock,
      List.append_assoc, List.take_left' (by rw [CRC_LEN]; omega)]
    rfl

theorem Correction.decoder_encoder {k : Correction} {x : Bits} {r : Res} (h : k.encoder x = .ok r) :
    k.decoder r.out = .ok { out := x } := by
  cases k with
  | none => cases h; rfl
  | hamming =>
    obtain ⟨r', henc, hdec, -⟩ := hammingDecodesEverySingleFlipExactly x
    cases henc.symm.trans h
    exact hdec

/-- A string `cc_enc` takes has at most 2040 bits (R79). -/
theorem length_le_of_ccEnc_ok {x : Bits} {r : Res} (h : ccEnc x = .ok r) : (padLeft8 x).length / 8 ≤ 255 := by
  by_contra hlarge
  cases (ccEnc_large (Nat.lt_of_not_le hlarge)).symm.trans h

/-- BIT_STUFF is undone exactly, the octet framings up to the left pad (R85). -/
theorem Framing.decoder_encoder {f : Framing} {x : Bits} {r : Res} (h : f.encoder x = .ok r) :
    f.decoder r.out = .ok { out := if f = .bitStuff then x else padLeft8 x } := by
  cases f with
  | charCount =>
    have hle := length_le_of_ccEnc_ok h
    rw [length_padLeft8_div] at hle
    obtain ⟨r', henc, hdec⟩ := ccDec_ccEnc (x := x) (by omega)
    cases henc.symm.trans h
    exact hdec
  | bitStuff =>
    obtain ⟨r', henc, hdec⟩ := bitDec_bitEnc x
    cases henc.symm.trans h
    exact hdec
  | byteStuff =>
    obtain ⟨r', henc, hdec⟩ := byteDec_byteEnc x
    cases henc.symm.trans h
    exact hdec

/-- Settles O58: each receive engine undoes its transmit engine. -/
theorem pipelineRoundTripsWithoutChecksum : Obligations.PipelineRoundTripsWithoutChecksum := by
  intro s t1 t2 t3 f k d hwf hf hk hd hchecksum hparity hcrc htx herr1 hxfer herr2 hrx
  have hP : d = .parity → s.parityPad = 0 := fun h => by rw [State.parityPad, hparity h]; rfl
  have hQ : d = .crc32 → s.crcPad = 64 := fun h => by rw [State.crcPad, hcrc h]; rfl
  obtain ⟨r1, r2, r3, h1, h2, -⟩ := exec_pipeTx_ok hwf hf hk hd htx herr1
  refine exec_pipeTx_xfer_pipeRx (q1 := { out := r2.out, valid := true }) (q2 := { out := r1.out })
    (q3 := { out := if f = .bitStuff then s.inString else padLeft8 s.inString }) hwf hf hk hd htx herr1 hxfer herr2 hrx
    fun r1' r2' r3' h1' h2' h3' => ?_
  cases h1.1.symm.trans h1'
  cases h2.1.symm.trans h2'
  exact ⟨Detection.decoder_encoder hchecksum hP hQ h3', Correction.decoder_encoder (r := r2) h2',
    Framing.decoder_encoder (r := r1) h1'⟩

/-! ### The round trip under CHECKSUM (R105) -/

/-! #### Zero bits after a codeword -/

theorem xorAll_zeros (n : Nat) : xorAll (zeros n) = false := by
  induction n with
  | zero => rfl
  | succ n ih => rwa [zeros, List.replicate_succ, xorAll_cons, Bool.false_xor]

theorem getD_append_zeros (w : Bits) (z k : Nat) : (w ++ zeros z).getD k false = w.getD k false := by
  by_cases hk : k < w.length
  · rw [List.getD_append _ _ _ _ hk]
  · rw [List.getD_append_right _ _ _ _ (Nat.le_of_not_lt hk), List.getD_eq_default w _ (Nat.le_of_not_lt hk), zeros]
    by_cases hz : k - w.length < z <;> simp [List.getD, hz]

/-- Zero bits after the codeword change no check. -/
theorem xorWhere_append_zeros (sel : Nat → Bool) (w : Bits) (z : Nat) : xorWhere sel (w ++ zeros z) = xorWhere sel w := by
  have hzero (k : Nat) : (sel (w.length + k + 1) && w.getD (w.length + k) false) = false := by
    rw [List.getD_eq_default _ _ (Nat.le_add_right _ _), Bool.and_false]
  rw [xorWhere_eq, xorWhere_eq, List.length_append, length_zeros, List.range_add, List.map_append, xorAll_append, List.map_map]
  simp only [getD_append_zeros, Function.comp_def, hzero]
  rw [List.map_const', List.length_range, ← zeros, xorAll_zeros, Bool.xor_false]

/-- A check whose power lies past the string covers none of its positions (R20). -/
theorem xorWhere_covers_past {w : Bits} {i : Nat} (h : w.length < 2 ^ i) : xorWhere (covers (2 ^ i)) w = false := by
  have hnone (k : Nat) (hk : k ∈ List.range w.length) : (covers (2 ^ i) (k + 1) && w.getD k false) = false := by
    have hlt : k + 1 < 2 ^ i := by have := List.mem_range.mp hk; omega
    rw [covers_two_pow, Nat.testBit_lt_two_pow hlt, Bool.false_and]
  rw [xorWhere_eq, List.map_congr_left hnone, List.map_const', ← zeros, xorAll_zeros]

theorem syndromeOf_append_zeros {w : Bits} (h : syndromeOf w = 0) (z : Nat) : syndromeOf (w ++ zeros z) = 0 := by
  refine Nat.eq_of_testBit_eq fun i => ?_
  rw [Nat.zero_testBit, Bool.eq_false_iff, ne_eq, testBit_syndromeOf, xorWhere_append_zeros]
  rintro ⟨-, hodd⟩
  by_cases hle : 2 ^ i ≤ w.length
  · have hbit := (testBit_syndromeOf w i).mpr ⟨hle, hodd⟩
    rw [h, Nat.zero_testBit] at hbit
    cases hbit
  · rw [xorWhere_covers_past (Nat.lt_of_not_le hle)] at hodd
    cases hodd

theorem filterMap_ite_none_some {α : Type} (p : α → Bool) (b : Bool) (l : List α) :
    (l.filterMap fun a => if p a then none else some b) = List.replicate (l.countP (!p ·)) b := by
  induction l with
  | nil => rfl
  | cons a l ih => cases h : p a <;> simp [h, ih, List.replicate_succ]

/-- Zero bits after the codeword are zero data bits, as many as lie at data positions. -/
theorem dataAt_append_zeros (w : Bits) (z : Nat) :
    dataAt (w ++ zeros z) = dataAt w ++ zeros ((List.range z).countP fun i => w.length + 1 + i ≠ 2 ^ (w.length + 1 + i).log2) := by
  have hzero (i : Nat) : w.getD (w.length + i) false = false := List.getD_eq_default _ _ (Nat.le_add_right _ _)
  have hpow (i : Nat) : (!isPow2 (w.length + i + 1)) = decide (w.length + 1 + i ≠ 2 ^ (w.length + 1 + i).log2) := by
    rw [Nat.add_right_comm, isPow2, beq_eq_decide, ← decide_not]
  rw [dataAt_eq, dataAt_eq, List.length_append, length_zeros, List.range_add, List.filterMap_append, List.filterMap_map]
  simp only [getD_append_zeros, Function.comp_def, hzero]
  rw [filterMap_ite_none_some]
  simp only [hpow, zeros]

/-- `ham_dec` of a codeword with zero bits after it: no error, the data, and a zero for each data position among them (R96). -/
theorem hamDec_hamEnc_append_zeros {x : Bits} {r : Res} (h : hamEnc x = .ok r) (z : Nat) :
    hamDec (r.out ++ zeros z)
      = .ok { out := x ++ zeros ((List.range z).countP fun i => r.out.length + 1 + i ≠ 2 ^ (r.out.length + 1 + i).log2) } := by
  cases (hamEnc_eq x).symm.trans h
  have hsyn := syndromeOf_append_zeros (syndromeOf_setParity (placedData x)) z
  rw [hamDec_eq, hsyn, if_neg (by omega), dataAt_append_zeros, dataAt_setParity, dataAt_placedData]
  rfl

/-! #### The decoders on a padded string -/

/-- The pad bits of the checksum reach the framing decoder as zero bits, `padReachingFraming` many. -/
theorem Correction.decoder_padRight8 {k : Correction} {x : Bits} {r : Res} (h : k.encoder x = .ok r) :
    k.decoder (padRight8 r.out) = .ok { out := x ++ zeros (padReachingFraming k r.out.length) } := by
  cases k with
  | none => cases h; rfl
  | hamming => exact hamDec_hamEnc_append_zeros h _

/-- CHAR_COUNT discards what lies past the declared octets (R80). -/
theorem ccDec_ccEnc_append {x : Bits} {r : Res} (h : ccEnc x = .ok r) (y : Bits) : ccDec (r.out ++ y) = .ok { out := padLeft8 x } := by
  have hle := length_le_of_ccEnc_ok h
  have haligned : (padLeft8 x).length % 8 = 0 := by rw [length_padLeft8, padLength_add_mod]
  cases (ccEnc_ok hle).symm.trans h
  have hheader : val (bitsOf (BitVec.ofNat 8 ((padLeft8 x).length / 8))) = (padLeft8 x).length / 8 := by
    rw [val_bitsOf, BitVec.toNat_ofNat, Nat.mod_eq_of_lt (by omega)]
  rw [List.append_assoc, ccDec_ok (by simp), List.take_left' (length_bitsOf _), List.drop_left' (length_bitsOf _), hheader,
    List.take_left' (by omega), decide_eq_false (by simp only [List.length_append, length_bitsOf]; omega)]

theorem octets_of_short {y : Bits} (h : y.length < 8) : octets y = [] := by
  rw [← List.length_eq_zero_iff, length_octets, Nat.div_eq_of_lt h]

/-- BYTE_STUFF drops fewer than eight bits past its octets, with MISALIGNED_TAIL (R82). -/
theorem byteDec_byteEnc_append {x : Bits} {r : Res} (h : byteEnc x = .ok r) {y : Bits} (hy : y.length < 8) :
    byteDec (r.out ++ y) = .ok { out := padLeft8 x, diag := { misalignedTail := decide (0 < y.length) } } := by
  cases h
  have haligned : (padLeft8 x).length % 8 = 0 := by rw [length_padLeft8, padLength_add_mod]
  simp only [byteDec, octets_fromOctets_append, octets_of_short hy, List.append_nil, byteBody_delimited,
    byteScan_flatMap_stuffOctet, List.length_append, length_fromOctets, fromOctets_octets _ haligned]
  have htail : (y.length % 8 != 0) = decide (0 < y.length) := by
    rw [Nat.mod_eq_of_lt hy, bne, beq_eq_decide, ← decide_not, decide_eq_decide]
    omega
  simp [htail, Diag.or]

/-- The run counter after the destuffing of a stuffed string is below five, whatever follows. -/
theorem destuffBits_stuffBits_append (x : Bits) {c : Nat} (hc : c < STUFF_RUN) :
    ∃ c' < STUFF_RUN, ∀ y, destuffBits c (stuffBits c x ++ y) = x ++ destuffBits c' y := by
  induction x generalizing c with
  | nil => exact ⟨c, hc, fun y => rfl⟩
  | cons b x ih =>
    obtain ⟨c0, hc0, h0⟩ := ih (c := 0) (by decide)
    cases b with
    | false => exact ⟨c0, hc0, fun y => by rw [stuffBits, List.cons_append, destuffBits, if_neg hc.ne, h0, List.cons_append]⟩
    | true =>
      by_cases hfull : c + 1 = STUFF_RUN
      · refine ⟨c0, hc0, fun y => ?_⟩
        rw [stuffBits, if_pos hfull, List.cons_append, List.cons_append, destuffBits, destuffBits, if_pos hfull,
          h0, List.cons_append]
      · obtain ⟨c1, hc1, h1⟩ := ih (c := c + 1) (by omega)
        exact ⟨c1, hc1, fun y => by rw [stuffBits, if_neg hfull, List.cons_append, destuffBits, h1, List.cons_append]⟩

theorem destuffBits_zeros (n : Nat) : destuffBits 0 (zeros n) = zeros n := by
  induction n with
  | zero => rfl
  | succ n ih => rw [zeros, List.replicate_succ, destuffBits, if_neg (by decide), ← zeros, ih]

/-- A flag is no stuffed string: its 0 after six 1s is kept (R84). -/
theorem destuffBits_flag {c : Nat} (hc : c < STUFF_RUN) (y : Bits) : destuffBits c (BITFLAG ++ y) = BITFLAG ++ destuffBits 0 y := by
  have hfirst : c ≠ 5 := hc.ne
  simp [BITFLAG, destuffBits, hfirst, STUFF_RUN]

/-- A flag ends in 1, 0, so it does not end where two zero bits do. -/
theorem not_flag_suffix_zeros (y : Bits) {e : Nat} (he : 0 < e) : ¬ BITFLAG <:+ y ++ BITFLAG ++ zeros e := by
  rintro ⟨a, ha⟩
  obtain ⟨n, rfl⟩ : ∃ n, e = n + 1 := ⟨e - 1, by omega⟩
  have hlast : (a ++ BITFLAG).reverse[1]? = (y ++ BITFLAG ++ zeros (n + 1)).reverse[1]? := by rw [ha]
  have hzeros : (zeros (n + 1)).reverse = zeros (n + 1) := List.reverse_replicate ..
  rw [List.reverse_append, List.reverse_append (bs := zeros _), hzeros] at hlast
  cases n <;> simp [BITFLAG, zeros, List.replicate_succ] at hlast

theorem stripLeading_flag_append (y : Bits) : stripLeading (BITFLAG ++ y) = (y, false) := by
  rw [stripLeading_eq, if_pos (List.prefix_append _ _), List.drop_left' (i := 8) rfl, decide_eq_false (by simp)]

theorem stripTrailing_of_not_suffix {y : Bits} (h : ¬ BITFLAG <:+ y) : stripTrailing y = (y, true) := by
  rw [stripTrailing_eq, if_neg h, decide_eq_true h]

/-- BIT_STUFF misses its trailing flag when zero bits follow it, and returns them all (R84). -/
theorem bitDec_bitEnc_append_zeros {x : Bits} {r : Res} (h : bitEnc x = .ok r) {e : Nat} (he : 0 < e) :
    bitDec (r.out ++ zeros e) = .ok { out := x ++ BITFLAG ++ zeros e, diag := { missingDelim := true } } := by
  cases h
  obtain ⟨c, hc, hdestuff⟩ := destuffBits_stuffBits_append x (c := 0) (by decide)
  have hframe : BITFLAG ++ stuffBits 0 x ++ BITFLAG ++ zeros e = BITFLAG ++ (stuffBits 0 x ++ BITFLAG ++ zeros e) := by
    simp only [List.append_assoc]
  simp only [bitDec]
  rw [hframe, stripLeading_flag_append, stripTrailing_of_not_suffix (not_flag_suffix_zeros _ he), List.append_assoc, hdestuff,
    destuffBits_flag hc, destuffBits_zeros, List.append_assoc]
  rfl

/-- What a framing decoder returns of a frame with e zero bits after it (R105). -/
def outputBeforeZeros (f : Framing) (x : Bits) (e : Nat) : Bits :=
  match f with
  | .bitStuff => if e = 0 then x else x ++ BITFLAG ++ zeros e
  | .charCount | .byteStuff => padLeft8 x

/-- The framing decoders on a frame with fewer than eight zero bits after it (R105). -/
theorem Framing.decoder_append_zeros {f : Framing} {x : Bits} {r : Res} (h : f.encoder x = .ok r) {e : Nat} (he : e ≤ 7) :
    f.decoder (r.out ++ zeros e) = .ok
      { out := outputBeforeZeros f x e,
        diag := { missingDelim := decide (f = .bitStuff ∧ 0 < e), misalignedTail := decide (f = .byteStuff ∧ 0 < e) } } := by
  cases f with
  | charCount => exact ccDec_ccEnc_append h (zeros e)
  | bitStuff =>
    obtain rfl | hpos := Nat.eq_zero_or_pos e
    · simpa [zeros, outputBeforeZeros] using Framing.decoder_encoder h
    · have hdec := bitDec_bitEnc_append_zeros h hpos
      change bitDec _ = _
      simpa [hpos, hpos.ne', outputBeforeZeros] using hdec
  | byteStuff =>
    have hdec := byteDec_byteEnc_append h (y := zeros e) (by rw [length_zeros]; omega)
    change byteDec _ = _
    simpa [outputBeforeZeros] using hdec

/-- A frame is no empty string, and no encoder shortens it, so the checksum's input has a bit. -/
theorem encoders_length_pos {f : Framing} {k : Correction} {x : Bits} {r1 r2 : Res} (h1 : f.encoder x = .ok r1)
    (h2 : k.encoder r1.out = .ok r2) : 1 ≤ r2.out.length := by
  have hframe : 1 ≤ r1.out.length := by
    cases f with
    | charCount =>
      cases (ccEnc_ok (length_le_of_ccEnc_ok h1)).symm.trans h1
      rw [List.length_append, length_bitsOf]
      omega
    | bitStuff => cases h1; simp [BITFLAG]
    | byteStuff =>
      cases h1
      rw [length_fromOctets, List.length_append, List.length_singleton]
      omega
  cases k with
  | none => cases h2; exact hframe
  | hamming =>
    obtain ⟨r, hr, hlen⟩ := hamEnc_length r1.out
    cases hr.symm.trans h2
    omega

/-- Settles O59: the checksum leaves its pad, the correction passes e of its zero bits on, and the framing decoder meets them. -/
theorem pipelineRoundTripsWithChecksum : Obligations.PipelineRoundTripsWithChecksum := by
  intro s t1 t2 t3 f k r1 r2 hwf hf hk hd h1 h2 htx herr1 hxfer herr2 hrx x e
  have hframing := Framing.decoder_append_zeros h1 (padReachingFraming_le k r2.out.length)
  have hpub := exec_pipeTx_xfer_pipeRx (q1 := { out := padRight8 r2.out, valid := true, csumValue := 0xFF })
    (q2 := { out := r1.out ++ zeros e }) hwf hf hk hd htx herr1 hxfer herr2 hrx fun r1' r2' r3' h1' h2' h3' => by
      cases h1.symm.trans h1'
      cases h2.symm.trans h2'
      obtain ⟨r, henc, hdec⟩ := csVer_csEnc (encoders_length_pos h1 h2)
      cases henc.symm.trans h3'
      exact ⟨hdec, Correction.decoder_padRight8 h2, hframing⟩
  cases f <;> exact hpub

/-! ### Single-stepping (R121) -/

theorem unitEngine_of_framing {f : Framing} {i : Instr}
    (h : (f, i) ∈ [(Framing.charCount, Instr.ccEnc), (.bitStuff, .bitEnc), (.byteStuff, .byteEnc)]) (P Q : Nat) :
    unitEngine P Q i = some f.encoder := by
  simp only [List.mem_cons, List.not_mem_nil, or_false, Prod.mk.injEq] at h
  obtain ⟨rfl, rfl⟩ | ⟨rfl, rfl⟩ | ⟨rfl, rfl⟩ := h <;> rfl

theorem unitEngine_of_detection {d : Detection} {i : Instr}
    (h : (d, i) ∈ [(Detection.parity, Instr.parEnc), (.checksum, .csEnc), (.crc32, .crcEnc)]) (P Q : Nat) :
    unitEngine P Q i = some d.encoder := by
  simp only [List.mem_cons, List.not_mem_nil, or_false, Prod.mk.injEq] at h
  obtain ⟨rfl, rfl⟩ | ⟨rfl, rfl⟩ | ⟨rfl, rfl⟩ := h <;> rfl

/-- Settles O60: each unit command shows its stage's record and XFER hands it on, so the three records are PIPE_TX's own. -/
theorem unitCommandChainEqualsPipeTx : Obligations.UnitCommandChainEqualsPipeTx := by
  intro s a b c d e t f det fi di hwf hf hk hdet hfi hdi ha hb hc hd he herra herrb herrc herrd herre ht
  obtain ⟨hin, r1, h1, hpa, houta, -⟩ := exec_unit_ok hwf (unitEngine_of_framing hfi _ _) ha herra
  obtain ⟨hpb, -, -, hinb, -⟩ := exec_xfer_ok hb herrb
  have hparams : b.params = s.params := hpb.trans hpa
  obtain ⟨-, r2, h2, hpc, houtc, -⟩ := exec_unit_ok (i := .hamEnc) (hparams ▸ hwf) rfl hc herrc
  obtain ⟨hpd, -, -, hind, -⟩ := exec_xfer_ok hd herrd
  have hparams' : d.params = s.params := hpd.trans (hpc.trans hparams)
  obtain ⟨-, r3, h3, -, houte, hcrc, hcsum⟩ := exec_unit_ok (hparams' ▸ hwf) (unitEngine_of_detection hdi _ _) he herre
  rw [hinb, State.outString_of_showsOut houta, hparams] at h2
  rw [hind, State.outString_of_showsOut houtc, hparams'] at h3
  obtain ⟨t', ht', ⟨⟨-, -, -, -, herrt, -, -, -, hcrct, hcsumt⟩, houtt⟩, htraces⟩ :=
    pipeTxRunsFramingCorrectionDetection s f .hamming det r1 r2 r3 hwf hin hf hk hdet h1 h2 h3
  cases ht'.symm.trans ht
  refine ⟨herrt, ?outLen, ?outString, hcrct.trans hcrc.symm, hcsumt.trans hcsum.symm, ?traces⟩
  case outLen => exact BitVec.eq_of_toNat_eq (houtt.1.trans houte.1.symm)
  case outString => rw [State.outString_of_showsOut houtt, State.outString_of_showsOut houte]
  case traces =>
    rw [State.outString_of_showsOut houta, State.outString_of_showsOut houtc, State.outString_of_showsOut houte]
    exact htraces

end Sys2Proof.Machine
end
